-- ==== Sys2Proof/Word.lean ====
section
/-! DEFINITION. The word types of the block: bytes of the host buffers, 16-bit port registers, 64-bit command
descriptors and 40-bit port records (00_scope.md R6, R7; 30_encoding.md R91, R101). -/

namespace Sys2Proof

/-- One byte of a host buffer (10_state.md R30). -/
abbrev Byte := BitVec 8

/-- One peripheral register, or the value of one port access: `REG_BITS` = 16 (00_scope.md R6). -/
abbrev Word := BitVec 16

/-- A command descriptor (30_encoding.md R91). -/
abbrev Descriptor := BitVec 64

/-- A port access as a trace writes it (30_encoding.md R101). -/
abbrev Record := BitVec 40

end Sys2Proof
end

