-- ==== Sys2Proof/Syntax.lean ====
section
/-! DEFINITION. The instructions: one constructor for each row of spec/opcode_table.json, the seven host commands
(30_encoding.md R95) and the twenty port micro-operations (30_encoding.md R102). Lengths and frequencies are
naturals, as the abstract commands have them (10_state.md R30; 92_eei_decisions.md D13, D14); WellFormed says which
of them a descriptor can carry. -/

namespace Sys2Proof

/-- One instruction: a host command or a port micro-operation. -/
inductive Instr where
  /-- `INIT freq, scl=.., sda=..` (43_configuration.md R196). -/
  | init (freq : Nat) (sclPullup sdaPullup : Bool)
  /-- `WRITE addr7, bytes` (41_bus_sequencer.md R150); the bytes stand in `TXBUF`. -/
  | write (addr7 : BitVec 7) (wlen : Nat)
  /-- `READ addr7, n` (41_bus_sequencer.md R151). -/
  | read (addr7 : BitVec 7) (rlen : Nat)
  /-- `WRRD addr7, bytes, n` (41_bus_sequencer.md R152). -/
  | wrrd (addr7 : BitVec 7) (wlen rlen : Nat)
  /-- `RECONF freq` (43_configuration.md R199). -/
  | reconf (freq : Nat)
  /-- `XITER` (43_configuration.md R206); no operand bit is examined (30_encoding.md R94). -/
  | xiter
  /-- `XACT` (43_configuration.md R207); no operand bit is examined (30_encoding.md R94). -/
  | xact
  /-- `P.RD_STAT1`: `PRead(STAT1)`. -/
  | pRdStat1
  /-- `P.RD_STAT2`: `PRead(STAT2)`. -/
  | pRdStat2
  /-- `P.RD_CTRL1`: `PRead(CTRL1)`. -/
  | pRdCtrl1
  /-- `P.RD_DATA`: `PRead(DATA)`. -/
  | pRdData
  /-- `P.WR_DATA`: `PWrite(DATA, zext_16(b))`. -/
  | pWrData (b : Byte)
  /-- `P.SET_START`: `PUpdate(CTRL1, START <- 1)`. -/
  | pSetStart
  /-- `P.SET_START_ACK`: `PUpdate(CTRL1, START <- 1, ACK <- 1)`. -/
  | pSetStartAck
  /-- `P.NACK_STOP`: `PUpdate(CTRL1, ACK <- 0, STOP <- 1)`. -/
  | pNackStop
  /-- `P.SET_STOP`: `PUpdate(CTRL1, STOP <- 1)`. -/
  | pSetStop
  /-- `P.PE_OFF`: `PUpdate(CTRL1, PE <- 0)`. -/
  | pPeOff
  /-- `P.PE_ON`: `PUpdate(CTRL1, PE <- 1)`. -/
  | pPeOn
  /-- `P.WR_FREQ`: `PUpdate(CTRL2, FREQ <- d)`. -/
  | pWrFreq (d : BitVec 6)
  /-- `P.WR_CCR`: `PUpdate(CCR, FS <- f, DUTY <- y, CCR <- c)`. -/
  | pWrCcr (fs duty : Bool) (c : BitVec 12)
  /-- `P.WR_TRISE`: `PUpdate(TRISE, TRISE <- r)`. -/
  | pWrTrise (r : BitVec 6)
  /-- `P.CLR_TIMEOUT`: `PClear(TIMEOUT)`. -/
  | pClrTimeout
  /-- `P.CLR_PECERR`: `PClear(PECERR)`. -/
  | pClrPecerr
  /-- `P.CLR_OVR`: `PClear(OVR)`. -/
  | pClrOvr
  /-- `P.CLR_AF`: `PClear(AF)`. -/
  | pClrAf
  /-- `P.CLR_ARLO`: `PClear(ARLO)`. -/
  | pClrArlo
  /-- `P.CLR_BERR`: `PClear(BERR)`. -/
  | pClrBerr
  deriving DecidableEq, Repr

/-- Whether an instruction is one of the twenty port micro-operations (30_encoding.md R102), and no host command. -/
def Instr.isPort : Instr → Bool
  | .init _ _ _ => false
  | .write _ _ => false
  | .read _ _ => false
  | .wrrd _ _ _ => false
  | .reconf _ => false
  | .xiter => false
  | .xact => false
  | .pRdStat1 => true
  | .pRdStat2 => true
  | .pRdCtrl1 => true
  | .pRdData => true
  | .pWrData _ => true
  | .pSetStart => true
  | .pSetStartAck => true
  | .pNackStop => true
  | .pSetStop => true
  | .pPeOff => true
  | .pPeOn => true
  | .pWrFreq _ => true
  | .pWrCcr _ _ _ => true
  | .pWrTrise _ => true
  | .pClrTimeout => true
  | .pClrPecerr => true
  | .pClrOvr => true
  | .pClrAf => true
  | .pClrArlo => true
  | .pClrBerr => true

end Sys2Proof
end

