-- ==== Sys2Proof/WellFormed.lean ====
section
/-! DEFINITION. Which instructions a descriptor or a record can carry. The abstract commands take naturals; the
binary descriptor has 16 bits for a length and 32 for a frequency (30_encoding.md R92, R93; 00_scope.md R6
`LEN_BITS`, `HZ_BITS`). Every other operand fits its field by its type. -/

namespace Sys2Proof

/-- The check of one instruction. -/
def Instr.wellFormed : Instr → Bool
  | .init freq _ _ => decide (freq < 2 ^ 32)
  | .write _ wlen => decide (wlen < 2 ^ 16)
  | .read _ rlen => decide (rlen < 2 ^ 16)
  | .wrrd _ wlen rlen => decide (wlen < 2 ^ 16) && decide (rlen < 2 ^ 16)
  | .reconf freq => decide (freq < 2 ^ 32)
  | .xiter => true
  | .xact => true
  | .pRdStat1 => true
  | .pRdStat2 => true
  | .pRdCtrl1 => true
  | .pRdData => true
  | .pWrData _ => true
  | .pSetStart => true
  | .pSetStartAck => true
  | .pNackStop => true
  | .pSetStop => true
  | .pPeOff => true
  | .pPeOn => true
  | .pWrFreq _ => true
  | .pWrCcr _ _ _ => true
  | .pWrTrise _ => true
  | .pClrTimeout => true
  | .pClrPecerr => true
  | .pClrOvr => true
  | .pClrAf => true
  | .pClrArlo => true
  | .pClrBerr => true

end Sys2Proof
end

