-- ==== Sys2Proof/Decode.lean ====
section
/-! DEFINITION. Decoding of command descriptors (30_encoding.md R91 to R95, R103, R104) and of port records
(30_encoding.md R101, R102), total on any bits and rejecting by name, and after it the encoder. -/

namespace Sys2Proof

/-- Why bits are no instruction. -/
inductive DecodeReject where
  /-- The bytes are neither the 8 of a descriptor nor the 5 of a record (30_encoding.md R106). -/
  | wrongLength
  /-- Opcode 0x00 or 0x08 to 0xFF (30_encoding.md R103). -/
  | illegalOpcode
  /-- A reserved or must-be-zero field is not 0 (30_encoding.md R104). -/
  | reservedField
  /-- A record that is none of the twenty micro-operations (30_encoding.md R102). -/
  | notAMicroOp
  deriving DecidableEq, Repr

/-- The encoded form of an instruction: a 64-bit descriptor or a 40-bit record. -/
inductive Image where
  | descriptor (d : Descriptor)
  | record (r : Record)
  deriving DecidableEq, Repr

/-! ### Descriptors -/

/-- Format `CT` (30_encoding.md R92): opcode, a reserved bit, `addr7`, `wlen`, `rlen`, 16 reserved bits. -/
def packCT (opcode : BitVec 8) (addr7 : BitVec 7) (wlen rlen : BitVec 16) : Descriptor :=
  opcode ++ 0#1 ++ addr7 ++ wlen ++ rlen ++ 0#16

/-- Format `CF` (30_encoding.md R93): opcode, 22 reserved bits, `sda_pullup`, `scl_pullup`, `freq`. -/
def packCF (opcode : BitVec 8) (sda scl : BitVec 1) (freq : BitVec 32) : Descriptor :=
  opcode ++ 0#22 ++ sda ++ scl ++ freq

/-- Bits 63:56 of a descriptor (30_encoding.md R91). -/
def descOpcode (d : Descriptor) : BitVec 8 := d.extractLsb' 56 8
/-- Bit 55, reserved in format `CT`. -/
def ctReservedHigh (d : Descriptor) : BitVec 1 := d.extractLsb' 55 1
/-- Bits 54:48 of format `CT`. -/
def ctAddr7 (d : Descriptor) : BitVec 7 := d.extractLsb' 48 7
/-- Bits 47:32 of format `CT`. -/
def ctWlen (d : Descriptor) : BitVec 16 := d.extractLsb' 32 16
/-- Bits 31:16 of format `CT`. -/
def ctRlen (d : Descriptor) : BitVec 16 := d.extractLsb' 16 16
/-- Bits 15:0, reserved in format `CT`. -/
def ctReservedLow (d : Descriptor) : BitVec 16 := d.extractLsb' 0 16
/-- Bits 55:34, reserved in format `CF`. -/
def cfReserved (d : Descriptor) : BitVec 22 := d.extractLsb' 34 22
/-- Bit 33 of format `CF`. -/
def cfSda (d : Descriptor) : BitVec 1 := d.extractLsb' 33 1
/-- Bit 32 of format `CF`. -/
def cfScl (d : Descriptor) : BitVec 1 := d.extractLsb' 32 1
/-- Bits 31:0 of format `CF`. -/
def cfFreq (d : Descriptor) : BitVec 32 := d.extractLsb' 0 32

/-- The instruction if the row's must-be-zero bits are zero (30_encoding.md R104). -/
def whenReserved (ok : Bool) (i : Instr) : Except DecodeReject Instr :=
  if ok then .ok i else .error .reservedField

/-- The opcode map of 30_encoding.md R95. -/
def decodeDescriptor (d : Descriptor) : Except DecodeReject Instr :=
  if descOpcode d = 0x01 then
    whenReserved (cfReserved d == 0) (.init (cfFreq d).toNat (cfScl d == 1) (cfSda d == 1))
  else if descOpcode d = 0x02 then
    whenReserved (ctReservedHigh d == 0 && ctRlen d == 0 && ctReservedLow d == 0) (.write (ctAddr7 d) (ctWlen d).toNat)
  else if descOpcode d = 0x03 then
    whenReserved (ctReservedHigh d == 0 && ctWlen d == 0 && ctReservedLow d == 0) (.read (ctAddr7 d) (ctRlen d).toNat)
  else if descOpcode d = 0x04 then
    whenReserved (ctReservedHigh d == 0 && ctReservedLow d == 0) (.wrrd (ctAddr7 d) (ctWlen d).toNat (ctRlen d).toNat)
  else if descOpcode d = 0x05 then
    whenReserved (cfReserved d == 0 && cfSda d == 0 && cfScl d == 0) (.reconf (cfFreq d).toNat)
  else if descOpcode d = 0x06 then .ok .xiter
  else if descOpcode d = 0x07 then .ok .xact
  else .error .illegalOpcode

/-! ### Port records -/

/-- Format `P` (30_encoding.md R101): kind, offset, mask, value. -/
def packP (kind : BitVec 2) (offset : BitVec 6) (mask value : Word) : Record :=
  kind ++ offset ++ mask ++ value

/-- Bits 39:38 of a record. -/
def recKind (r : Record) : BitVec 2 := r.extractLsb' 38 2
/-- Bits 37:32 of a record. -/
def recOffset (r : Record) : BitVec 6 := r.extractLsb' 32 6
/-- Bits 31:16 of a record. -/
def recMask (r : Record) : Word := r.extractLsb' 16 16
/-- Bits 15:0 of a record. -/
def recValue (r : Record) : Word := r.extractLsb' 0 16

/-- The records of kind 0, `PRead` (30_encoding.md R102). -/
def decodePRead (off : BitVec 6) (mask value : Word) : Except DecodeReject Instr :=
  if mask = 0 ∧ value = 0 then
    if off = 0x14 then .ok .pRdStat1
    else if off = 0x18 then .ok .pRdStat2
    else if off = 0x00 then .ok .pRdCtrl1
    else if off = 0x10 then .ok .pRdData
    else .error .notAMicroOp
  else .error .notAMicroOp

/-- The record of kind 1, `PWrite` (30_encoding.md R102). -/
def decodePWrite (off : BitVec 6) (mask value : Word) : Except DecodeReject Instr :=
  if off = 0x10 ∧ mask = 0xFFFF ∧ value.extractLsb' 8 8 = 0 then .ok (.pWrData (value.extractLsb' 0 8))
  else .error .notAMicroOp

/-- The records of kind 2, `PUpdate` (30_encoding.md R102). -/
def decodePUpdate (off : BitVec 6) (mask value : Word) : Except DecodeReject Instr :=
  if off = 0x00 then
    if mask = 0x0100 ∧ value = 0x0100 then .ok .pSetStart
    else if mask = 0x0500 ∧ value = 0x0500 then .ok .pSetStartAck
    else if mask = 0x0600 ∧ value = 0x0200 then .ok .pNackStop
    else if mask = 0x0200 ∧ value = 0x0200 then .ok .pSetStop
    else if mask = 0x0001 ∧ value = 0x0000 then .ok .pPeOff
    else if mask = 0x0001 ∧ value = 0x0001 then .ok .pPeOn
    else .error .notAMicroOp
  else if off = 0x04 then
    if mask = 0x003F ∧ value.extractLsb' 6 10 = 0 then .ok (.pWrFreq (value.extractLsb' 0 6))
    else .error .notAMicroOp
  else if off = 0x1C then
    if mask = 0xCFFF ∧ value.extractLsb' 12 2 = 0 then
      .ok (.pWrCcr (value.extractLsb' 15 1 == 1) (value.extractLsb' 14 1 == 1) (value.extractLsb' 0 12))
    else .error .notAMicroOp
  else if off = 0x20 then
    if mask = 0x003F ∧ value.extractLsb' 6 10 = 0 then .ok (.pWrTrise (value.extractLsb' 0 6))
    else .error .notAMicroOp
  else .error .notAMicroOp

/-- The records of kind 3, `PClear` (30_encoding.md R102). -/
def decodePClear (off : BitVec 6) (mask value : Word) : Except DecodeReject Instr :=
  if off = 0x14 ∧ value = 0 then
    if mask = 0x4000 then .ok .pClrTimeout
    else if mask = 0x1000 then .ok .pClrPecerr
    else if mask = 0x0800 then .ok .pClrOvr
    else if mask = 0x0400 then .ok .pClrAf
    else if mask = 0x0200 then .ok .pClrArlo
    else if mask = 0x0100 then .ok .pClrBerr
    else .error .notAMicroOp
  else .error .notAMicroOp

/-- The twenty micro-operations of 30_encoding.md R102; any other record is rejected. -/
def decodeRecord (r : Record) : Except DecodeReject Instr :=
  if recKind r = 0 then decodePRead (recOffset r) (recMask r) (recValue r)
  else if recKind r = 1 then decodePWrite (recOffset r) (recMask r) (recValue r)
  else if recKind r = 2 then decodePUpdate (recOffset r) (recMask r) (recValue r)
  else decodePClear (recOffset r) (recMask r) (recValue r)

/-- Decoding of either form. -/
def decode : Image → Except DecodeReject Instr
  | .descriptor d => decodeDescriptor d
  | .record r => decodeRecord r

/-- The number a list of bytes spells, the first byte least significant. DESIGN CHOICE: the spec never splits a
descriptor or a record into bytes (20_memory.md R68; log 24). -/
def bytesToNat : List Byte → Nat
  | [] => 0
  | b :: bs => b.toNat + 256 * bytesToNat bs

/-- Decoding of any bytes: eight are a descriptor, five a record, any other number is rejected. -/
def decodeBytes (bs : List Byte) : Except DecodeReject Instr :=
  if bs.length = 8 then decodeDescriptor (BitVec.ofNat 64 (bytesToNat bs))
  else if bs.length = 5 then decodeRecord (BitVec.ofNat 40 (bytesToNat bs))
  else .error .wrongLength

/-- The instruction of a row's word as spec/opcode_table.json numbers its bits: up to 40 bits are a record, up to
64 a descriptor. -/
def decodeTableWord (nbits w : Nat) : Option Instr :=
  if nbits ≤ 40 then (decodeRecord (BitVec.ofNat 40 w)).toOption
  else if nbits ≤ 64 then (decodeDescriptor (BitVec.ofNat 64 w)).toOption
  else none

/-! ### Encoding -/

/-- One bit. -/
def bit1 (b : Bool) : BitVec 1 := if b then 1 else 0

/-- The value field of `P.WR_CCR`: `f y 00 cccccccccccc` (30_encoding.md R102). -/
def ccrValue (fs duty : Bool) (c : BitVec 12) : Word := bit1 fs ++ bit1 duty ++ 0#2 ++ c

/-- The encoder, from the tables of 30_encoding.md R92, R93, R95, R102. `XITER` and `XACT` get zeros in the bits
that are not examined. -/
def encode : Instr → Image
  | .init freq scl sda => .descriptor (packCF 0x01 (bit1 sda) (bit1 scl) (BitVec.ofNat 32 freq))
  | .write a w => .descriptor (packCT 0x02 a (BitVec.ofNat 16 w) 0)
  | .read a n => .descriptor (packCT 0x03 a 0 (BitVec.ofNat 16 n))
  | .wrrd a w n => .descriptor (packCT 0x04 a (BitVec.ofNat 16 w) (BitVec.ofNat 16 n))
  | .reconf freq => .descriptor (packCF 0x05 0 0 (BitVec.ofNat 32 freq))
  | .xiter => .descriptor (packCT 0x06 0 0 0)
  | .xact => .descriptor (packCT 0x07 0 0 0)
  | .pRdStat1 => .record (packP 0 0x14 0x0000 0x0000)
  | .pRdStat2 => .record (packP 0 0x18 0x0000 0x0000)
  | .pRdCtrl1 => .record (packP 0 0x00 0x0000 0x0000)
  | .pRdData => .record (packP 0 0x10 0x0000 0x0000)
  | .pWrData b => .record (packP 1 0x10 0xFFFF (0#8 ++ b))
  | .pSetStart => .record (packP 2 0x00 0x0100 0x0100)
  | .pSetStartAck => .record (packP 2 0x00 0x0500 0x0500)
  | .pNackStop => .record (packP 2 0x00 0x0600 0x0200)
  | .pSetStop => .record (packP 2 0x00 0x0200 0x0200)
  | .pPeOff => .record (packP 2 0x00 0x0001 0x0000)
  | .pPeOn => .record (packP 2 0x00 0x0001 0x0001)
  | .pWrFreq d => .record (packP 2 0x04 0x003F (0#10 ++ d))
  | .pWrCcr fs duty c => .record (packP 2 0x1C 0xCFFF (ccrValue fs duty c))
  | .pWrTrise r => .record (packP 2 0x20 0x003F (0#10 ++ r))
  | .pClrTimeout => .record (packP 3 0x14 0x4000 0x0000)
  | .pClrPecerr => .record (packP 3 0x14 0x1000 0x0000)
  | .pClrOvr => .record (packP 3 0x14 0x0800 0x0000)
  | .pClrAf => .record (packP 3 0x14 0x0400 0x0000)
  | .pClrArlo => .record (packP 3 0x14 0x0200 0x0000)
  | .pClrBerr => .record (packP 3 0x14 0x0100 0x0000)

end Sys2Proof
end

