-- ==== Sys2Proof/Config.lean ====
section
/-! DEFINITION. What is fixed for the machine: the parameters of 00_scope.md R6, the address map of 20_memory.md R61,
and the free values, which have no body. -/

namespace Sys2Proof

/-- The regime of the bus clock (10_state.md R25). -/
inductive Mode where
  | standard
  | fast
  deriving DecidableEq, Repr

/-- The duty policy of the bus clock (10_state.md R25). -/
inductive Duty where
  | duty2_1
  | duty16_9
  deriving DecidableEq, Repr

/-- The seven peripheral registers the block reaches (10_state.md R31). -/
inductive Reg where
  | ctrl1
  | ctrl2
  | data
  | stat1
  | stat2
  | ccr
  | trise
  deriving DecidableEq, Repr

/-- Offset of a register from `REG_BASE` (20_memory.md R61). -/
def Reg.offset : Reg → BitVec 6
  | .ctrl1 => 0x00
  | .ctrl2 => 0x04
  | .data  => 0x10
  | .stat1 => 0x14
  | .stat2 => 0x18
  | .ccr   => 0x1C
  | .trise => 0x20

/-- `REG_BASE`, OPEN: left to the platform (20_memory.md R61; 93_implementation_defined.md U24; log 8). -/
opaque Config.regBase : Nat

/-- The address of a register (20_memory.md R61). No rule of the block depends on it. -/
def Reg.address (r : Reg) : Nat := Config.regBase + r.offset.toNat

/-- The free values: what the environment answers, and what a register holds after `ExtReset`, where no scripted
answer says it (20_memory.md R70; 10_state.md R48; log 1, log 9). No body: nothing can be proved of a value of it. -/
opaque Config.freeAnswer : Nat → Word

/-- `MHZ`, the divisor's unit (00_scope.md R6). -/
def Config.mhz : Nat := 1000000
/-- `DIV_MIN` (00_scope.md R6). -/
def Config.divMin : Nat := 2
/-- `DIV_MAX` (00_scope.md R6). -/
def Config.divMax : Nat := 50
/-- `STD_LIMIT_HZ`, the highest target served in Standard mode (00_scope.md R6). -/
def Config.stdLimitHz : Nat := 100000
/-- `CCR_MIN_STD` (00_scope.md R6). -/
def Config.ccrMinStd : Nat := 4
/-- `CCR_MIN_FAST` (00_scope.md R6). -/
def Config.ccrMinFast : Nat := 1
/-- `STD_PHASES` (00_scope.md R6). -/
def Config.stdPhases : Nat := 2
/-- `FAST21_PHASES` (00_scope.md R6). -/
def Config.fast21Phases : Nat := 3
/-- `FAST169_PHASES` (00_scope.md R6). -/
def Config.fast169Phases : Nat := 25
/-- `RISE_NUM` (00_scope.md R6). -/
def Config.riseNum : Nat := 300
/-- `RISE_DEN` (00_scope.md R6). -/
def Config.riseDen : Nat := 1000
/-- `FAST_DUTY_POLICY`, hardwired to 2:1 in this hardware (00_scope.md R6; 40_timing_calculator.md R127, R128; log 29). -/
def Config.fastDutyPolicy : Duty := .duty2_1
/-- The largest value of the 12-bit clock-control field (43_configuration.md R202). -/
def Config.ccrFieldMax : Nat := 4095
/-- The largest target whose `target * 3` stays below 2^32; above it the input has no meaning
(60_exceptions.md R225 `WideTarget`; 93_implementation_defined.md U6). -/
def Config.targetMax : Nat := 1431655765

end Sys2Proof
end

