-- ==== Sys2Proof/Machine/State.lean ====
section
/-! DEFINITION. The state of an execution as plain data: the block's own elements (10_state.md R21 to R30), the
peripheral's registers and hidden bits (R31 to R44), the host's buffers and commands (R20, R30, R45), the
environment's answers (20_memory.md R70), and the state right after reset (R47). -/

namespace Sys2Proof.Machine

/-- The steps of the two configuration commands (43_configuration.md R197, R199): `c1` to `c10` of `INIT`,
`g1` to `g4` of `RECONF`. -/
inductive CfgStep where
  | c1
  | c2
  | c3
  | c4
  | c5
  | c6
  | c7
  | c8
  | c9
  | c10
  | g1
  | g2
  | g3
  | g4
  deriving DecidableEq, Repr

/-- Reasons of a fatal abort (60_exceptions.md R224). -/
inductive FatalReason where
  | divisorRange
  | targetZero
  | unimplemented
  | illegalCommand
  deriving DecidableEq, Repr

/-- The state kinds of the sequencer (10_state.md R23). The index of `S_TXE(i)`, `S_BTF(i)` and `S_RXNE(i)` is the
element `IDX`; `HALT` carries the reason that is indicated to the host (log 23). -/
inductive Fsm where
  | idle
  | start
  | master
  | addr
  | addrclr
  | txe
  | btf
  | rxne
  | stop
  | cfg (k : CfgStep)
  | halt (r : FatalReason)
  deriving DecidableEq, Repr

/-- The error flags of `STAT1`, in the order the monitor tests them (42_error_flag_monitor.md R183). -/
inductive ErrFlag where
  | timeout
  | pecerr
  | ovr
  | af
  | arlo
  deriving DecidableEq, Repr

/-- What the block is about to do inside its `FSM` state (10_state.md R23; 41_bus_sequencer.md R142, R153; log 11). -/
inductive Stage where
  /-- The START request `w1` or `r1` (only with `FSM` = `S_START`). -/
  | request
  /-- The status read `e1` of a monitor call. -/
  | monitor
  /-- The `PClear` of the error flag the monitor reports. -/
  | clearErr (f : ErrFlag)
  /-- The `PClear(BERR)`, after which the call reports `e`, or reports nothing. -/
  | clearBerr (e : Option ErrFlag)
  /-- The second read of a master or STOP poll. -/
  | second
  /-- The access that the row of the step table makes on leaving the state. -/
  | leave
  /-- The update of `CTRL1` that follows that access. -/
  | leaveCtrl
  deriving DecidableEq, Repr

/-- `OP` (10_state.md R22). -/
inductive Op where
  | init
  | write
  | read
  | wrrd
  | reconf
  deriving DecidableEq, Repr

/-- `PHASE` (10_state.md R22). -/
inductive Phase where
  | wr
  | rd
  deriving DecidableEq, Repr

/-- Completion codes in the order of their numbers (30_encoding.md R100); `bus` and `zeroLengthTransfer` are members
that nothing raises (R105). -/
inductive Result where
  | ok
  | bus
  | arbitration
  | nack
  | timeout
  | crc
  | overrun
  | zeroLengthTransfer
  deriving DecidableEq, Repr

/-- `TIMINGS` (10_state.md R25). -/
structure Timings where
  divisor : Nat
  mode : Mode
  duty : Duty
  ccr : Nat
  trise : Nat
  deriving DecidableEq, Repr

/-- `CONFIG` (10_state.md R26): true is a pull-up. -/
structure PinConfig where
  sdaPullup : Bool
  sclPullup : Bool
  deriving DecidableEq, Repr

/-- The peripheral: the seven registers (10_state.md R31), and the hidden bits of R42 and R43. The address latch is
the bit `STAT1.ADDR`; the pending requests of R44 are the bits `CTRL1.START` and `CTRL1.STOP`. -/
structure Periph where
  ctrl1 : Word
  ctrl2 : Word
  data : Word
  stat1 : Word
  stat2 : Word
  ccr : Word
  trise : Word
  /-- The last `STAT1` read returned `ADDR` = 1: a `STAT2` read now clears the latch (R42; log 25). -/
  addrRead : Bool
  /-- The byte being shifted in at the last `DATA` read is answered with ACK (R43; log 26). -/
  ackDecision : Bool
  deriving DecidableEq, Repr

/-- Bytes of a host buffer by index: strictly rising indexes, no listed byte equal to what an unlisted index reads
as (10_state.md R30; log 18). -/
abbrev Memory := List Host.Cell

/-- One command as the host issues it: the descriptor, and the two buffers lent with it (10_state.md R20). -/
structure HostCmd where
  desc : Descriptor
  tx : Memory
  rx : Memory
  deriving DecidableEq, Repr

/-- What happens outside the block before one of its steps (log 13 to log 15, log 31). -/
inductive Input where
  /-- Nothing: the block steps. -/
  | quiet
  /-- The block is reset; the execution goes on with the peripheral in state `p`, as it was or any other
  (70_reset_and_hazards.md R245, R248; 93_implementation_defined.md U10; log 14). -/
  | reset (p : Periph)
  /-- The environment takes a step: it drives the bits of register `r` that it owns to those of `v`
  (00_scope.md R5; 10_state.md R41; 92_eei_decisions.md D2; log 31). -/
  | environment (r : Reg) (v : Word)
  /-- A command is offered, whatever the block is doing (60_exceptions.md R225 `Busy`). -/
  | offer (c : HostCmd)
  /-- Another agent leaves register `r` at `v` (60_exceptions.md R225 `ConcurrentAccess`). -/
  | foreign (r : Reg) (v : Word)
  /-- The host writes `TXBUF[i]` (60_exceptions.md R225 `PayloadChanged`). -/
  | hostWrite (i : Nat) (b : Byte)
  /-- The host reads `RXBUF` (70_reset_and_hazards.md R266; 93_implementation_defined.md U20). -/
  | hostRead
  deriving DecidableEq, Repr

/-- The host's side (10_state.md R20). -/
structure HostSide where
  txbuf : Memory
  rxbuf : Memory
  /-- What the waiting host will issue, one command each time the block is idle (00_scope.md R5). After a fatal abort it
  issues nothing more until a reset: R5 does not say, and the model takes it that the host still waits for the
  completion of its command (DESIGN CHOICE, log 13). -/
  program : List HostCmd
  /-- What outside agents do, one entry a step. -/
  inputs : List Input
  deriving DecidableEq, Repr

/-- The environment's answers: a script, and after it the free values from number `drawn` on (log 1). -/
structure Env where
  answers : List Word
  drawn : Nat
  deriving DecidableEq, Repr

/-- The strobes to the out-of-scope collaborators (20_memory.md R66). -/
inductive Strobe where
  | extClockEnable
  | extReset
  | extPinScl (up : Bool)
  | extPinSda (up : Bool)
  deriving DecidableEq, Repr

/-- One entry of a trace: a port access as its 40-bit record, with the value a read returned
(30_encoding.md R101), or a strobe. -/
inductive Event where
  | port (r : Record) (value : Option Word)
  | strobe (x : Strobe)
  deriving DecidableEq, Repr

/-- The state of an execution. -/
structure State where
  /-- `FSM` (10_state.md R21). -/
  fsm : Fsm
  /-- The sub-step inside the state (10_state.md R23). -/
  stage : Stage
  /-- `OP` (10_state.md R22). -/
  op : Op
  /-- `PHASE` (10_state.md R22). -/
  phase : Phase
  /-- `IDX` (10_state.md R24). -/
  idx : Nat
  /-- `ADDR7` (10_state.md R30). -/
  addr7 : BitVec 7
  /-- `WLEN` (10_state.md R30). -/
  wlen : Nat
  /-- `RLEN` (10_state.md R30). -/
  rlen : Nat
  /-- The frequency operand sampled at acceptance (20_memory.md R84). -/
  freq : Nat
  /-- The pull operands sampled at acceptance (20_memory.md R84). -/
  pull : PinConfig
  /-- The record `t` of a running configuration command (43_configuration.md R197, R199). -/
  plan : Timings
  /-- `SNAP` (10_state.md R29): the status word of a monitor call, stored by the flag poll that called it (log 30). -/
  snap : Word
  /-- The value the last port read returned: the `s` of a monitor call in progress (42_error_flag_monitor.md R181), the
  `t`, `c` and `b` of 41_bus_sequencer.md R142 and R146. -/
  rdata : Word
  /-- `RESULT` (10_state.md R28); none is "no value" (R47). -/
  result : Option Result
  /-- `TIMINGS` (10_state.md R25); none is "no value" (R47). -/
  timings : Option Timings
  /-- `CONFIG` (10_state.md R26); none is "no value" (R47). -/
  config : Option PinConfig
  /-- `CONSTRUCTED` (10_state.md R27). -/
  constructed : Bool
  /-- The peripheral (10_state.md R31 to R44). -/
  per : Periph
  /-- The host's side (10_state.md R20). -/
  host : HostSide
  /-- The environment's answers (20_memory.md R70). -/
  env : Env
  /-- `PCLK_HZ` (00_scope.md R6; log 7). -/
  pclkHz : Nat
  /-- The accesses and strobes of the current command, newest first (log 20). -/
  trace : List Event
  deriving DecidableEq, Repr

/-- Why the machine stops with a fault. -/
inductive Fault where
  /-- Raised by the sequencer at a combination of `FSM`, sub-step, `OP`, `PHASE` and `IDX` for which the step table
  (41_bus_sequencer.md R153) has no row. Safe: no run from reset reaches one, and a claim about it proves nothing of
  the block (log 12). -/
  | noTransition
  deriving DecidableEq, Repr

/-- Why the model gives an execution no meaning (60_exceptions.md R225). All are safe: the spec itself asks for the
refusal. -/
inductive Refusal where
  /-- Raised by the dispatch for an instruction that has no meaning yet; no arm does so. -/
  | notModelled (mnemonic : String)
  /-- Raised by `WRITE`, `READ`, `WRRD`, `RECONF` with `CONSTRUCTED` = 0. -/
  | notConstructed
  /-- Raised by `INIT` with `CONSTRUCTED` = 1. -/
  | alreadyConstructed
  /-- Raised by a command offered while `FSM` is not `IDLE`, `HALT` included. -/
  | busy
  /-- Raised by `INIT` and `RECONF` whose calculated `ccr` does not fit 12 bits. -/
  | ccrRange
  /-- Raised by `INIT` and `RECONF` with a target above 1,431,655,765. -/
  | wideTarget
  /-- Raised when another agent touches the registers while `CONSTRUCTED` = 1. -/
  | concurrentAccess
  /-- Raised when the host changes `TXBUF` or looks at `RXBUF` while a command runs. -/
  | payloadChanged
  deriving DecidableEq, Repr

/-- What every meaning answers with. -/
abbrev Answer := Host.Outcome State Fault Refusal

/-- The peripheral at reset: 10_state.md R48 gives no value; zero is the model's DESIGN CHOICE (log 4). -/
def Periph.reset : Periph where
  ctrl1 := 0
  ctrl2 := 0
  data := 0
  stat1 := 0
  stat2 := 0
  ccr := 0
  trise := 0
  addrRead := false
  ackDecision := false

/-- The state right after reset: `FSM = IDLE`, `CONSTRUCTED = 0`, and `TIMINGS`, `CONFIG`, `RESULT` without a value
(10_state.md R47; 70_reset_and_hazards.md R245). The other values are the model's (log 4, 5, 7, 13, 20). -/
def State.reset : State where
  fsm := .idle
  stage := .monitor
  op := .init
  phase := .wr
  idx := 0
  addr7 := 0
  wlen := 0
  rlen := 0
  freq := 0
  pull := { sdaPullup := false, sclPullup := false }
  plan := { divisor := 0, mode := .standard, duty := .duty2_1, ccr := 0, trise := 0 }
  snap := 0
  rdata := 0
  result := none
  timings := none
  config := none
  constructed := false
  per := Periph.reset
  host := { txbuf := [], rxbuf := [], program := [], inputs := [] }
  env := { answers := [], drawn := 0 }
  pclkHz := 36000000
  trace := []

end Sys2Proof.Machine
end

