-- ==== Sys2Proof/Machine/Flags.lean ====
section
/-! DEFINITION. The bits of the peripheral's registers and every decision made on a flag: bit positions
(10_state.md R32 to R39), the monitor's tests (42_error_flag_monitor.md R181 to R185), and which bits of a read the
environment may choose (10_state.md R41; 20_memory.md R70, R71). -/

namespace Sys2Proof.Machine

namespace Bit

/-! `CTRL1` (10_state.md R32). -/
def pe : Nat := 0
def start : Nat := 8
def stop : Nat := 9
def ack : Nat := 10

/-! `STAT1` (10_state.md R35). -/
def sb : Nat := 0
def addr : Nat := 1
def btf : Nat := 2
def rxne : Nat := 6
def txe : Nat := 7
def berr : Nat := 8
def arlo : Nat := 9
def af : Nat := 10
def ovr : Nat := 11
def pecerr : Nat := 12
def timeout : Nat := 14

/-! `STAT2` (10_state.md R37). -/
def msl : Nat := 0
def busy : Nat := 1

end Bit

/-- Bit `n` of a register value (00_scope.md R7). -/
def hasBit (w : Word) (n : Nat) : Bool := w.getLsbD n

/-- The register mask of bit `n` (30_encoding.md R101). -/
def maskBit (n : Nat) : Word := BitVec.twoPow 16 n

/-- `w` with bit `n` cleared. -/
def clearBit (w : Word) (n : Nat) : Word := w &&& ~~~(maskBit n)

/-- `old` with the bits under `mask` taken from `new` (20_memory.md R64). -/
def underMask (mask old new : Word) : Word := (old &&& ~~~mask) ||| (new &&& mask)

/-- The bit of an error flag (10_state.md R35). -/
def errBit : ErrFlag → Nat
  | .timeout => Bit.timeout
  | .pecerr => Bit.pecerr
  | .ovr => Bit.ovr
  | .af => Bit.af
  | .arlo => Bit.arlo

/-- The error an error flag is reported as (42_error_flag_monitor.md R184). -/
def errResult : ErrFlag → Result
  | .timeout => .timeout
  | .pecerr => .crc
  | .ovr => .overrun
  | .af => .nack
  | .arlo => .arbitration

/-- The error flag a monitor call reports for the status word `s`: the first one set, in the monitor's order
(42_error_flag_monitor.md R181, R183). -/
def firstError (s : Word) : Option ErrFlag :=
  if hasBit s Bit.timeout then some .timeout
  else if hasBit s Bit.pecerr then some .pecerr
  else if hasBit s Bit.ovr then some .ovr
  else if hasBit s Bit.af then some .af
  else if hasBit s Bit.arlo then some .arlo
  else none

/-- The completion code of a result (30_encoding.md R100). -/
def resultCode : Result → Nat
  | .ok => 0
  | .bus => 1
  | .arbitration => 2
  | .nack => 3
  | .timeout => 4
  | .crc => 5
  | .overrun => 6
  | .zeroLengthTransfer => 7

/-- The bits of `STAT1` that stay 1 until the block clears them: the error flags and `BERR` (20_memory.md R71), and
the address latch (10_state.md R42; log 2). -/
def stickyStat1 : Word :=
  maskBit Bit.timeout ||| maskBit Bit.pecerr ||| maskBit Bit.ovr ||| maskBit Bit.af ||| maskBit Bit.arlo |||
    maskBit Bit.berr ||| maskBit Bit.addr

/-- What a `STAT1` read returns when the register holds `old` and the environment answers `a`: flags are only set,
and sticky ones stay (10_state.md R41; 20_memory.md R71, R81). -/
def stat1Answer (old a : Word) : Word := a ||| (old &&& stickyStat1)

/-- What a `CTRL1` read returns: `PE` and `ACK` as the block last set them, `START` and `STOP` only cleared by the
environment, every other bit the environment's (10_state.md R41; 20_memory.md R70, R80; log 3). -/
def ctrl1Answer (old a : Word) : Word :=
  underMask (maskBit Bit.pe ||| maskBit Bit.ack) (underMask (maskBit Bit.start ||| maskBit Bit.stop) a (old &&& a)) old

/-- What register `r`, holding `old`, holds after the environment drove the bits it owns to those of `a`, and the value a
read that it answers `a` returns (10_state.md R41; 20_memory.md R70). The block never reads `CTRL2`,
`CCR` or `TRISE` (R62); the fields it owns in them are kept. -/
def readAnswer (r : Reg) (old a : Word) : Word :=
  match r with
  | .stat1 => stat1Answer old a
  | .ctrl1 => ctrl1Answer old a
  | .stat2 => a
  | .data => a
  | .ctrl2 => underMask 0x003F a old
  | .ccr => underMask 0xCFFF a old
  | .trise => underMask 0x003F a old

end Sys2Proof.Machine
end

