-- ==== Sys2Proof/Machine/Operands.lean ====
section
/-! DEFINITION. Operand forms: the address byte (30_encoding.md R96), the register images of a Timings record
(R97, R98), and the pseudo-instructions of the bus-abstraction surfaces (R111). -/

namespace Sys2Proof.Machine

/-- `ADDRBYTE(a, dir)` (30_encoding.md R96): bits 7:1 the address, bit 0 the direction, 1 for read. -/
def addrByte (a : BitVec 7) (dir : Bool) : Byte := (a.zeroExtend 8 <<< 1) ||| (if dir then 1 else 0)

/-- The direction of a phase (41_bus_sequencer.md R147, R148): false is write, true is read. -/
def phaseDir : Phase → Bool
  | .wr => false
  | .rd => true

/-- A byte as a `DATA` value (20_memory.md R63: `zext_16`). -/
def dataWord (b : Byte) : Word := b.zeroExtend 16

/-- The byte of a `DATA` value: bits 7:0 (10_state.md R34). -/
def dataByte (w : Word) : Byte := w.extractLsb' 0 8

/-- `fs(mode)` (30_encoding.md R97). -/
def fsOf : Mode → Bool
  | .standard => false
  | .fast => true

/-- `dy(duty)` (30_encoding.md R97). -/
def dutyOf : Duty → Bool
  | .duty2_1 => false
  | .duty16_9 => true

/-- The image of `mode`, `duty` and `ccr` in register `CCR`, bits 13:12 as 0: `CCRIMG` (30_encoding.md R97). -/
def ccrImage (fs duty : Bool) (c : BitVec 12) : Word :=
  (if fs then maskBit 15 else 0) ||| (if duty then maskBit 14 else 0) ||| c.zeroExtend 16

/-- The six-bit image of `divisor` or `trise` (30_encoding.md R98). -/
def sixBits (n : Nat) : BitVec 6 := BitVec.ofNat 6 n

/-- The twelve-bit image of `ccr` (30_encoding.md R97). -/
def twelveBits (n : Nat) : BitVec 12 := BitVec.ofNat 12 n

/-- A call of one of the bus-abstraction surfaces, by role (30_encoding.md R111). -/
inductive SurfaceCall where
  | read (addr7 : BitVec 7) (n : Nat)
  | write (addr7 : BitVec 7) (n : Nat)
  | writeThenRead (addr7 : BitVec 7) (w n : Nat)
  | iterator
  | transaction
  deriving DecidableEq, Repr

/-- The one command a surface call expands to (30_encoding.md R111). -/
def expandSurface : SurfaceCall → Instr
  | .read a n => .read a n
  | .write a n => .write a n
  | .writeThenRead a w n => .wrrd a w n
  | .iterator => .xiter
  | .transaction => .xact

end Sys2Proof.Machine
end

