-- ==== Sys2Proof/Machine/Tcalc.lean ====
section
/-! DEFINITION. The timing calculator `TCALC` (40_timing_calculator.md R120 to R130): a pure function on naturals. -/

namespace Sys2Proof.Machine

/-- `divisor` (40_timing_calculator.md R121). -/
def tcalcDivisor (clock : Nat) : Nat := clock / Config.mhz

/-- `trise` (40_timing_calculator.md R125). -/
def tcalcTrise (divisor target : Nat) : Nat :=
  if target ≤ Config.stdLimitHz then divisor + 1 else divisor * Config.riseNum / Config.riseDen + 1

/-- The record of a target in Standard mode (40_timing_calculator.md R126). -/
def tcalcStandard (clock target : Nat) : Timings where
  divisor := tcalcDivisor clock
  mode := .standard
  duty := .duty2_1
  ccr := max Config.ccrMinStd (clock / (target * Config.stdPhases))
  trise := tcalcTrise (tcalcDivisor clock) target

/-- The record of a target in Fast mode under a duty policy (40_timing_calculator.md R127, R128). The 16:9 value is
recorded only; this hardware never selects it (log 29). -/
def tcalcFast (policy : Duty) (clock target : Nat) : Timings where
  divisor := tcalcDivisor clock
  mode := .fast
  duty := policy
  ccr :=
    match policy with
    | .duty2_1 => max Config.ccrMinFast (clock / (target * Config.fast21Phases))
    | .duty16_9 => max Config.ccrMinFast (clock / (target * Config.fast169Phases))
  trise := tcalcTrise (tcalcDivisor clock) target

/-- `TCALC` under a duty policy (40_timing_calculator.md R129). -/
def tcalcWith (policy : Duty) (clock target : Nat) : Except FatalReason Timings :=
  if tcalcDivisor clock < Config.divMin ∨ Config.divMax < tcalcDivisor clock then .error .divisorRange
  else if target = 0 then .error .targetZero
  else if target ≤ Config.stdLimitHz then .ok (tcalcStandard clock target)
  else .ok (tcalcFast policy clock target)

/-- `TCALC` as this hardware has it. -/
def tcalc (clock target : Nat) : Except FatalReason Timings := tcalcWith Config.fastDutyPolicy clock target

end Sys2Proof.Machine
end

