-- ==== Sys2Proof/Machine/Ops.lean ====
section
/-! DEFINITION. The named operations over the state: host buffers, the environment's answers, the four port primitives
(20_memory.md R62 to R65), the strobes (R66), and the two ways a command ends early or late, `Complete` and
`raise Fatal` (60_exceptions.md R228, R224). -/

namespace Sys2Proof.Machine

/-! ### Host buffers -/

/-- What an index that is not listed reads as. DESIGN CHOICE (log 18). -/
def Memory.unlisted : Byte := 0

/-- The byte at index `i` (20_memory.md R66 `HostTx`). -/
def Memory.read : Memory → Nat → Byte
  | [], _ => Memory.unlisted
  | (a, b) :: m, i => if a = i then b else Memory.read m i

/-- The buffer with byte `b` at index `i` (20_memory.md R66 `HostRx`), kept in its one form. -/
def Memory.write : Memory → Nat → Byte → Memory
  | [], i, b => if b = Memory.unlisted then [] else [(i, b)]
  | (a, c) :: m, i, b =>
    if a < i then (a, c) :: Memory.write m i b
    else if a = i then (if b = Memory.unlisted then m else (i, b) :: m)
    else if b = Memory.unlisted then (a, c) :: m
    else (i, b) :: (a, c) :: m

/-- Every listed index is at least `lo`, they rise strictly, and no listed byte is the unlisted one. -/
def Memory.wfFrom : Nat → Memory → Bool
  | _, [] => true
  | lo, (a, b) :: m => decide (lo ≤ a) && decide (b ≠ Memory.unlisted) && Memory.wfFrom (a + 1) m

/-- The one form a buffer has. -/
def Memory.wf (m : Memory) : Bool := Memory.wfFrom 0 m

/-- The buffer that holds a list of bytes from index `i` on. -/
def Memory.ofBytesAt : Nat → List Byte → Memory
  | _, [] => []
  | i, b :: bs => if b = Memory.unlisted then Memory.ofBytesAt (i + 1) bs else (i, b) :: Memory.ofBytesAt (i + 1) bs

/-- The buffer that holds a list of bytes. -/
def Memory.ofBytes (bs : List Byte) : Memory := Memory.ofBytesAt 0 bs

/-! ### The environment -/

/-- The answer to the next read (20_memory.md R70): the script's, or a free value. -/
def Env.answer (e : Env) : Word :=
  match e.answers with
  | [] => Config.freeAnswer e.drawn
  | a :: _ => a

/-- The environment after one answer. -/
def Env.advance (e : Env) : Env :=
  match e.answers with
  | [] => { e with drawn := e.drawn + 1 }
  | _ :: as => { e with answers := as }

/-- The environment after `n` answers. -/
def Env.advanceBy : Nat → Env → Env
  | 0, e => e
  | n + 1, e => (Env.advanceBy n e).advance

/-! ### Register access -/

/-- The one read accessor of the registers (10_state.md R31). -/
def Periph.get (p : Periph) : Reg → Word
  | .ctrl1 => p.ctrl1
  | .ctrl2 => p.ctrl2
  | .data => p.data
  | .stat1 => p.stat1
  | .stat2 => p.stat2
  | .ccr => p.ccr
  | .trise => p.trise

/-- The one write accessor of the registers (10_state.md R31). -/
def Periph.set (p : Periph) (r : Reg) (v : Word) : Periph :=
  match r with
  | .ctrl1 => { p with ctrl1 := v }
  | .ctrl2 => { p with ctrl2 := v }
  | .data => { p with data := v }
  | .stat1 => { p with stat1 := v }
  | .stat2 => { p with stat2 := v }
  | .ccr => { p with ccr := v }
  | .trise => { p with trise := v }

/-- What a read of register `r` that returned `v` does to the peripheral. `STAT1`: the first half of the
latch-clearing sequence (10_state.md R42). `STAT2`: the second half clears the address latch (20_memory.md R76).
`DATA`: the register is drained, and the acknowledge decision falls on `CTRL1.ACK` (20_memory.md R78, R79;
10_state.md R43); what the emptied field holds R78 leaves open, and the model leaves the value just read in it
(DESIGN CHOICE, log 32). -/
def Periph.afterRead (p : Periph) (r : Reg) (v : Word) : Periph :=
  match r with
  | .stat1 => { p with stat1 := v, addrRead := hasBit v Bit.addr }
  | .stat2 =>
    { p with
      stat2 := v
      stat1 := if p.addrRead then clearBit p.stat1 Bit.addr else p.stat1
      addrRead := false }
  | .data =>
    { p with
      data := v
      stat1 := clearBit p.stat1 Bit.rxne
      ackDecision := hasBit p.ctrl1 Bit.ack }
  | .ctrl1 => p.set .ctrl1 v
  | .ctrl2 => p.set .ctrl2 v
  | .ccr => p.set .ccr v
  | .trise => p.set .trise v

/-- The state with one more event in the trace (30_encoding.md R101). -/
def State.logEvent (e : Event) (s : State) : State := { s with trace := e :: s.trace }

/-- The value `PRead(r)` returns in state `s` (20_memory.md R62, R70). -/
def State.readValue (r : Reg) (s : State) : Word := readAnswer r (s.per.get r) s.env.answer

/-- `PRead(r)` (20_memory.md R62). -/
def pRead (r : Reg) (s : State) : State :=
  { s with
    per := s.per.afterRead r (s.readValue r)
    env := s.env.advance
    rdata := s.readValue r
    trace := .port (packP 0 r.offset 0 0) (some (s.readValue r)) :: s.trace }

/-- `PWrite(DATA, v)` (20_memory.md R63). -/
def pWrite (v : Word) (s : State) : State :=
  { s with
    per := s.per.set .data v
    trace := .port (packP 1 Reg.data.offset 0xFFFF v) none :: s.trace }

/-- `PUpdate(r, ...)` (20_memory.md R64): `mask` is the union of the named fields, `value` their new values. -/
def pUpdate (r : Reg) (mask value : Word) (s : State) : State :=
  { s with
    per := s.per.set r (underMask mask (s.per.get r) value)
    trace := .port (packP 2 r.offset mask value) none :: s.trace }

/-- `PClear` of the `STAT1` flag at bit `n` (20_memory.md R65). -/
def pClear (n : Nat) (s : State) : State :=
  { s with
    per := s.per.set .stat1 (clearBit s.per.stat1 n)
    trace := .port (packP 3 Reg.stat1.offset (maskBit n) 0) none :: s.trace }

/-! ### Strobes -/

/-- A strobe with no modelled effect (20_memory.md R66). -/
def extStrobe (x : Strobe) (s : State) : State := s.logEvent (.strobe x)

/-- The peripheral after `ExtReset`: every register and hidden bit is the environment's choice (10_state.md R48;
log 9). -/
def Periph.afterExtReset (e : Env) : Periph where
  ctrl1 := e.answer
  ctrl2 := (e.advanceBy 1).answer
  data := (e.advanceBy 2).answer
  stat1 := (e.advanceBy 3).answer
  stat2 := (e.advanceBy 4).answer
  ccr := (e.advanceBy 5).answer
  trise := (e.advanceBy 6).answer
  addrRead := hasBit (e.advanceBy 7).answer 0
  ackDecision := hasBit (e.advanceBy 7).answer 1

/-- `ExtReset` (20_memory.md R66). -/
def extReset (s : State) : State :=
  { s with
    per := Periph.afterExtReset s.env
    env := s.env.advanceBy 8
    trace := .strobe .extReset :: s.trace }

/-! ### Ends of a command -/

/-- `Complete(r)`, and with it `raise Err(e)` (60_exceptions.md R228): nothing is saved, nothing is redirected. -/
def complete (r : Result) (s : State) : State := { s with result := some r, fsm := .idle }

/-- `raise Fatal(r)` (60_exceptions.md R224): only `FSM` changes. -/
def raiseFatal (r : FatalReason) (s : State) : State := { s with fsm := .halt r }

/-- Reset of the block (70_reset_and_hazards.md R245, R248): the only way out of `HALT` and of a hang, and the model's
counterpart of a return. The block's elements take their reset values; the execution goes on with the peripheral in
state `p` (log 14); the host and the environment are not touched. -/
def resetBlock (p : Periph) (s : State) : State :=
  { State.reset with per := p, host := s.host, env := s.env, pclkHz := s.pclkHz }

/-! ### Acceptance -/

/-- The operands of a transfer command latched at acceptance (10_state.md R30; 20_memory.md R84). -/
def latchTransfer (op : Op) (a : BitVec 7) (w n : Nat) (s : State) : State :=
  { s with op := op, addr7 := a, wlen := w, rlen := n }

/-- The start of a phase (41_bus_sequencer.md R147, R148): `PHASE`, `IDX` = 0 (10_state.md R24), and the START
request comes next. -/
def startPhase (p : Phase) (s : State) : State :=
  { s with phase := p, idx := 0, fsm := .start, stage := .request }

/-- Entry of the read phase (41_bus_sequencer.md R148 `r0`): an empty buffer is `Overrun`. -/
def enterRead (s : State) : State := if s.rlen = 0 then complete .overrun s else startPhase .rd s

/-- The operands of a configuration command latched at acceptance (43_configuration.md R196, R199). -/
def latchConfig (op : Op) (freq : Nat) (pull : PinConfig) (k : CfgStep) (s : State) : State :=
  { s with op := op, freq := freq, pull := pull, fsm := .cfg k }

/-- Whether the record `TCALC` returns does not fit the `CCR` field (43_configuration.md R202). -/
def ccrTooWide (clock target : Nat) : Bool :=
  match tcalc clock target with
  | .ok t => decide (Config.ccrFieldMax < t.ccr)
  | .error _ => false

/-- Acceptance of a configuration command once its lifecycle conditions hold: the two refusals that depend on the
frequency come before its first step (43_configuration.md R202; 60_exceptions.md R225, R227). -/
def acceptConfig (op : Op) (freq : Nat) (pull : PinConfig) (k : CfgStep) (s : State) : Answer :=
  if Config.targetMax < freq then .refused .wideTarget
  else if ccrTooWide s.pclkHz freq then .refused .ccrRange
  else .next (latchConfig op freq pull k s)

/-- The lifecycle conditions of a command that needs a constructed block (60_exceptions.md R225). -/
def whenReady (s : State) (a : Answer) : Answer :=
  if s.fsm ≠ .idle then .refused .busy
  else if !s.constructed then .refused .notConstructed
  else a

/-- The lifecycle conditions of `INIT` (60_exceptions.md R225). -/
def whenFresh (s : State) (a : Answer) : Answer :=
  if s.fsm ≠ .idle then .refused .busy
  else if s.constructed then .refused .alreadyConstructed
  else a

/-- `Fatal(Unimplemented)`, whatever `CONSTRUCTED` is (43_configuration.md R206, R207); like every command it is accepted
in `IDLE` only (60_exceptions.md R225 `Busy`; log 16). -/
def unimplemented (s : State) : Answer :=
  if s.fsm ≠ .idle then .refused .busy
  else .next (raiseFatal .unimplemented s)

end Sys2Proof.Machine
end

