-- ==== Sys2Proof/Machine/Configure.lean ====
section
/-! DEFINITION. The configuration commands and the aborting opcodes (43_configuration.md R195 to R208). A meaning of
`INIT` or `RECONF` is the acceptance of the command; the steps `c1` to `c10` and `g1` to `g4` are the sequencer's
(Machine/Sequencer.lean). -/

namespace Sys2Proof.Machine

/-- `INIT` (43_configuration.md R196, R197). -/
def execInit (freq : Nat) (scl sda : Bool) (s : State) : Answer :=
  whenFresh s (acceptConfig .init freq { sdaPullup := sda, sclPullup := scl } .c1 s)

/-- `RECONF` (43_configuration.md R199). -/
def execReconf (freq : Nat) (s : State) : Answer :=
  whenReady s (acceptConfig .reconf freq s.pull .g1 s)

/-- `XITER` (43_configuration.md R206). -/
def execXiter (s : State) : Answer := unimplemented s

/-- `XACT` (43_configuration.md R207). -/
def execXact (s : State) : Answer := unimplemented s

/-- The value `CfgWrite` gives to `CTRL2.FREQ` (43_configuration.md R201). -/
def cfgFreq (t : Timings) : Instr := .pWrFreq (sixBits t.divisor)

/-- The values `CfgWrite` gives to the fields of `CCR` (43_configuration.md R201). -/
def cfgCcr (t : Timings) : Instr := .pWrCcr (fsOf t.mode) (dutyOf t.duty) (twelveBits t.ccr)

/-- The value `CfgWrite` gives to `TRISE.TRISE` (43_configuration.md R201). -/
def cfgTrise (t : Timings) : Instr := .pWrTrise (sixBits t.trise)

/-- The calculation `c6` or `g1` (43_configuration.md R197, R198, R199): a record, with `k` the next step, or fatal. -/
def cfgCalculate (k : CfgStep) (s : State) : State :=
  match tcalc s.pclkHz s.freq with
  | .ok t => { s with plan := t, fsm := .cfg k }
  | .error r => raiseFatal r s

/-- The end of `INIT` (43_configuration.md R197). -/
def finishInit (s : State) : State :=
  complete .ok { s with config := some s.pull, timings := some s.plan, constructed := true }

/-- The end of `RECONF` (43_configuration.md R199, R205). -/
def finishReconf (s : State) : State := complete .ok { s with timings := some s.plan }

end Sys2Proof.Machine
end

