-- ==== Sys2Proof/Machine/Port.lean ====
section
/-! DEFINITION. The twenty port micro-operations (30_encoding.md R102), each one application of a port primitive
(20_memory.md R62 to R65). -/

namespace Sys2Proof.Machine

/-- `P.RD_STAT1`: the status read of a monitor call (42_error_flag_monitor.md R181 `e1`), which writes no element of the
block of its own (R180; log 30). -/
def execPRdStat1 (s : State) : Answer := .next (pRead .stat1 s)

/-- `P.RD_STAT2` (41_bus_sequencer.md R142, R144). -/
def execPRdStat2 (s : State) : Answer := .next (pRead .stat2 s)

/-- `P.RD_CTRL1` (41_bus_sequencer.md R142). -/
def execPRdCtrl1 (s : State) : Answer := .next (pRead .ctrl1 s)

/-- `P.RD_DATA` (41_bus_sequencer.md R146). -/
def execPRdData (s : State) : Answer := .next (pRead .data s)

/-- `P.WR_DATA` (41_bus_sequencer.md R144, R145). -/
def execPWrData (b : Byte) (s : State) : Answer := .next (pWrite (dataWord b) s)

/-- `P.SET_START` (41_bus_sequencer.md R143). -/
def execPSetStart (s : State) : Answer := .next (pUpdate .ctrl1 (maskBit Bit.start) (maskBit Bit.start) s)

/-- `P.SET_START_ACK` (41_bus_sequencer.md R143). -/
def execPSetStartAck (s : State) : Answer :=
  .next (pUpdate .ctrl1 (maskBit Bit.start ||| maskBit Bit.ack) (maskBit Bit.start ||| maskBit Bit.ack) s)

/-- `P.NACK_STOP` (41_bus_sequencer.md R148 `r9`). -/
def execPNackStop (s : State) : Answer :=
  .next (pUpdate .ctrl1 (maskBit Bit.ack ||| maskBit Bit.stop) (maskBit Bit.stop) s)

/-- `P.SET_STOP` (41_bus_sequencer.md R150 `s1`). -/
def execPSetStop (s : State) : Answer := .next (pUpdate .ctrl1 (maskBit Bit.stop) (maskBit Bit.stop) s)

/-- `P.PE_OFF` (43_configuration.md R197 `c5`). -/
def execPPeOff (s : State) : Answer := .next (pUpdate .ctrl1 (maskBit Bit.pe) 0 s)

/-- `P.PE_ON` (43_configuration.md R197 `c10`). -/
def execPPeOn (s : State) : Answer := .next (pUpdate .ctrl1 (maskBit Bit.pe) (maskBit Bit.pe) s)

/-- `P.WR_FREQ` (43_configuration.md R201). -/
def execPWrFreq (d : BitVec 6) (s : State) : Answer := .next (pUpdate .ctrl2 0x003F (d.zeroExtend 16) s)

/-- `P.WR_CCR` (43_configuration.md R201). -/
def execPWrCcr (fs duty : Bool) (c : BitVec 12) (s : State) : Answer :=
  .next (pUpdate .ccr 0xCFFF (ccrImage fs duty c) s)

/-- `P.WR_TRISE` (43_configuration.md R201). -/
def execPWrTrise (r : BitVec 6) (s : State) : Answer := .next (pUpdate .trise 0x003F (r.zeroExtend 16) s)

/-- `P.CLR_TIMEOUT` (42_error_flag_monitor.md R181). -/
def execPClrTimeout (s : State) : Answer := .next (pClear Bit.timeout s)

/-- `P.CLR_PECERR` (42_error_flag_monitor.md R181). -/
def execPClrPecerr (s : State) : Answer := .next (pClear Bit.pecerr s)

/-- `P.CLR_OVR` (42_error_flag_monitor.md R181). -/
def execPClrOvr (s : State) : Answer := .next (pClear Bit.ovr s)

/-- `P.CLR_AF` (42_error_flag_monitor.md R181). -/
def execPClrAf (s : State) : Answer := .next (pClear Bit.af s)

/-- `P.CLR_ARLO` (42_error_flag_monitor.md R181). -/
def execPClrArlo (s : State) : Answer := .next (pClear Bit.arlo s)

/-- `P.CLR_BERR` (42_error_flag_monitor.md R181, R185). -/
def execPClrBerr (s : State) : Answer := .next (pClear Bit.berr s)

end Sys2Proof.Machine
end

