-- ==== Sys2Proof/Machine/Transfer.lean ====
section
/-! DEFINITION. The transfer commands (41_bus_sequencer.md R140, R150 to R152). A meaning is the acceptance of the
command; the accesses that follow are the sequencer's (Machine/Sequencer.lean). -/

namespace Sys2Proof.Machine

/-- `WRITE` (41_bus_sequencer.md R150): the write phase starts. -/
def execWrite (a : BitVec 7) (w : Nat) (s : State) : Answer :=
  whenReady s (.next (startPhase .wr (latchTransfer .write a w 0 s)))

/-- `READ` (41_bus_sequencer.md R151): the read phase is entered; with no byte to receive it is `Overrun` at once. -/
def execRead (a : BitVec 7) (n : Nat) (s : State) : Answer :=
  whenReady s (.next (enterRead (latchTransfer .read a 0 n s)))

/-- `WRRD` (41_bus_sequencer.md R152): the write phase starts; the read phase follows it. -/
def execWrrd (a : BitVec 7) (w n : Nat) (s : State) : Answer :=
  whenReady s (.next (startPhase .wr (latchTransfer .wrrd a w n s)))

end Sys2Proof.Machine
end

