-- ==== Sys2Proof/Machine/Dispatch.lean ====
section
/-! DEFINITION. The meaning of each instruction: one arm a constructor. -/

namespace Sys2Proof.Machine

def exec (i : Instr) (s : State) : Host.Outcome State Fault Refusal :=
  match i with
  | .init freq scl sda => Sys2Proof.Machine.execInit freq scl sda s
  | .write a w => Sys2Proof.Machine.execWrite a w s
  | .read a n => Sys2Proof.Machine.execRead a n s
  | .wrrd a w n => Sys2Proof.Machine.execWrrd a w n s
  | .reconf freq => Sys2Proof.Machine.execReconf freq s
  | .xiter => Sys2Proof.Machine.execXiter s
  | .xact => Sys2Proof.Machine.execXact s
  | .pRdStat1 => Sys2Proof.Machine.execPRdStat1 s
  | .pRdStat2 => Sys2Proof.Machine.execPRdStat2 s
  | .pRdCtrl1 => Sys2Proof.Machine.execPRdCtrl1 s
  | .pRdData => Sys2Proof.Machine.execPRdData s
  | .pWrData b => Sys2Proof.Machine.execPWrData b s
  | .pSetStart => Sys2Proof.Machine.execPSetStart s
  | .pSetStartAck => Sys2Proof.Machine.execPSetStartAck s
  | .pNackStop => Sys2Proof.Machine.execPNackStop s
  | .pSetStop => Sys2Proof.Machine.execPSetStop s
  | .pPeOff => Sys2Proof.Machine.execPPeOff s
  | .pPeOn => Sys2Proof.Machine.execPPeOn s
  | .pWrFreq d => Sys2Proof.Machine.execPWrFreq d s
  | .pWrCcr fs duty c => Sys2Proof.Machine.execPWrCcr fs duty c s
  | .pWrTrise r => Sys2Proof.Machine.execPWrTrise r s
  | .pClrTimeout => Sys2Proof.Machine.execPClrTimeout s
  | .pClrPecerr => Sys2Proof.Machine.execPClrPecerr s
  | .pClrOvr => Sys2Proof.Machine.execPClrOvr s
  | .pClrAf => Sys2Proof.Machine.execPClrAf s
  | .pClrArlo => Sys2Proof.Machine.execPClrArlo s
  | .pClrBerr => Sys2Proof.Machine.execPClrBerr s

end Sys2Proof.Machine
end

