-- ==== Sys2Proof/Machine/Sequencer.lean ====
section
/-! DEFINITION. The sequencer as a step machine (41_bus_sequencer.md R153): which access the block makes next
(`access`), what follows from it (`advance`), and the steps that make no access (`internalStep`). The monitor's
sub-steps are those of 42_error_flag_monitor.md R181, the configuration steps those of 43_configuration.md R197 and
R199. -/

namespace Sys2Proof.Machine

/-- The polling states: each iteration begins with a monitor call (41_bus_sequencer.md R141). -/
def Fsm.polls : Fsm → Bool
  | .start => true
  | .master => true
  | .addr => true
  | .txe => true
  | .btf => true
  | .rxne => true
  | .stop => true
  | .idle => false
  | .addrclr => false
  | .cfg _ => false
  | .halt _ => false

/-- The micro-operation that clears an error flag (42_error_flag_monitor.md R184). -/
def clearOf : ErrFlag → Instr
  | .timeout => .pClrTimeout
  | .pecerr => .pClrPecerr
  | .ovr => .pClrOvr
  | .af => .pClrAf
  | .arlo => .pClrArlo

/-- `i` if the state is a polling one. -/
def whilePolling (s : State) (i : Instr) : Option Instr := if s.fsm.polls then some i else none

/-- The START request of a phase (41_bus_sequencer.md R143). -/
def requestOf (s : State) : Option Instr :=
  match s.fsm with
  | .start =>
    match s.phase with
    | .wr => some .pSetStart
    | .rd => some .pSetStartAck
  | _ => none

/-- The second read of a poll (41_bus_sequencer.md R142 `PollMaster`, `PollStop`). -/
def secondOf (s : State) : Option Instr :=
  match s.fsm with
  | .master => some .pRdStat2
  | .stop => some .pRdCtrl1
  | _ => none

/-- The access made on leaving a state (41_bus_sequencer.md R153). -/
def leaveOf (s : State) : Option Instr :=
  match s.fsm with
  | .master => some (.pWrData (addrByte s.addr7 (phaseDir s.phase)))
  | .addrclr => some .pRdStat2
  | .txe => some (.pWrData (s.host.txbuf.read s.idx))
  | .btf => some .pSetStop
  | .rxne => some .pRdData
  | _ => none

/-- The update of `CTRL1` made after that access (41_bus_sequencer.md R153). -/
def leaveCtrlOf (s : State) : Option Instr :=
  match s.fsm with
  | .addrclr =>
    match s.phase with
    | .wr => some .pSetStop
    | .rd => some .pNackStop
  | .rxne => some .pNackStop
  | _ => none

/-- The access of a configuration step (43_configuration.md R197, R199); none for the steps that make none. -/
def cfgAccess (k : CfgStep) (t : Timings) : Option Instr :=
  match k with
  | .c5 => some .pPeOff
  | .c7 => some (cfgFreq t)
  | .c8 => some (cfgCcr t)
  | .c9 => some (cfgTrise t)
  | .c10 => some .pPeOn
  | .g2 => some (cfgFreq t)
  | .g3 => some (cfgCcr t)
  | .g4 => some (cfgTrise t)
  | .c1 => none
  | .c2 => none
  | .c3 => none
  | .c4 => none
  | .c6 => none
  | .g1 => none

/-- The one access the block makes next (10_state.md R21), as its micro-operation; none in `IDLE`, in `HALT`, and
where the step makes no access. -/
def access (s : State) : Option Instr :=
  match s.fsm with
  | .cfg k => cfgAccess k s.plan
  | _ =>
    match s.stage with
    | .request => requestOf s
    | .monitor => whilePolling s .pRdStat1
    | .clearErr f => whilePolling s (clearOf f)
    | .clearBerr _ => whilePolling s .pClrBerr
    | .second => secondOf s
    | .leave => leaveOf s
    | .leaveCtrl => leaveCtrlOf s

/-! ### Where the step table has a row -/

/-- `WRITE` and `WRRD`, the commands that run a write phase (10_state.md R22). -/
def Op.writes : Op → Bool
  | .write => true
  | .wrrd => true
  | .init => false
  | .read => false
  | .reconf => false

/-- Row `S_BTF(i)` of 41_bus_sequencer.md R153: more bytes follow, or the last byte of a command with a write phase. -/
def btfRow (s : State) : Bool :=
  decide (s.idx + 1 < s.wlen) || (decide (s.idx + 1 = s.wlen) && s.op.writes)

/-- Row `S_ADDRCLR` of 41_bus_sequencer.md R153. -/
def latchRow (s : State) : Bool :=
  match s.phase with
  | .wr => decide (0 < s.wlen) || s.op.writes
  | .rd => decide (0 < s.rlen)

/-- Row `S_RXNE(i)` of 41_bus_sequencer.md R153. -/
def drainRow (s : State) : Bool := decide (s.idx < s.rlen)

/-- A polling state with its row. -/
def pollRow (s : State) : Bool :=
  match s.fsm with
  | .btf => btfRow s
  | .rxne => drainRow s
  | f => f.polls

/-- Whether the step table of 41_bus_sequencer.md R153 (with the sub-steps of R142 and 42_error_flag_monitor.md R181)
has a row for the place the sequencer stands at; every configuration step has one. -/
def hasRow (s : State) : Bool :=
  match s.fsm with
  | .idle => true
  | .halt _ => true
  | .cfg _ => true
  | _ =>
    match s.stage with
    | .request => decide (s.fsm = .start)
    | .monitor => pollRow s
    | .clearErr _ => pollRow s
    | .clearBerr _ => pollRow s
    | .second => decide (s.fsm = .master) || decide (s.fsm = .stop)
    | .leave =>
      match s.fsm with
      | .master => true
      | .addrclr => latchRow s
      | .txe => true
      | .btf => btfRow s
      | .rxne => drainRow s
      | _ => false
    | .leaveCtrl => decide (s.fsm = .addrclr) || (decide (s.fsm = .rxne) && drainRow s)

/-! ### What follows an access

These functions are used only at places that have a row (`hasRow`); elsewhere they leave the state as it is. -/

/-- The state `f`, beginning with a monitor call. -/
def goPoll (f : Fsm) (s : State) : State := { s with fsm := f, stage := .monitor }

/-- The same state, at sub-step `g`. -/
def goStage (g : Stage) (s : State) : State := { s with stage := g }

/-- After the last payload byte's `BTF`, or an empty payload's latch clear: `WRITE` requests STOP next (at sub-step
`g`), `WRRD` enters the read phase (41_bus_sequencer.md R153). -/
def afterPayload (g : Stage) (s : State) : State :=
  match s.op with
  | .write => goStage g s
  | .wrrd => enterRead s
  | .init => s
  | .read => s
  | .reconf => s

/-- The exit of the `BTF` poll (41_bus_sequencer.md R153, row `S_BTF(i)`). -/
def afterBtf (s : State) : State :=
  if s.idx + 1 < s.wlen then goPoll .txe { s with idx := s.idx + 1 } else afterPayload .leave s

/-- The caller stores the status word the monitor returned (41_bus_sequencer.md R142: `S.SNAP <- EFM()?`;
42_error_flag_monitor.md R180; log 30). -/
def storeSnap (s : State) : State := { s with snap := s.rdata }

/-- A flag poll after its monitor call: the snapshot is stored, and `go` follows if the awaited bit `n` is set in it, else
the next iteration (41_bus_sequencer.md R142 `PollFlag`). -/
def pollFlag (n : Nat) (go : State → State) (s : State) : State :=
  if hasBit (storeSnap s).snap n then go (storeSnap s) else goStage .monitor (storeSnap s)

/-- A monitor call returned `Ok` (41_bus_sequencer.md R142, R153); the master and STOP polls discard the value. -/
def afterMonitor (s : State) : State :=
  match s.fsm with
  | .start => pollFlag Bit.sb (goPoll .master) s
  | .master => goStage .second s
  | .addr => pollFlag Bit.addr (fun t => { t with fsm := .addrclr, stage := .leave }) s
  | .txe => pollFlag Bit.txe (goStage .leave) s
  | .btf => pollFlag Bit.btf afterBtf s
  | .rxne => pollFlag Bit.rxne (goStage .leave) s
  | .stop => goStage .second s
  | .idle => s
  | .addrclr => s
  | .cfg _ => s
  | .halt _ => s

/-- After the status read `e1` (42_error_flag_monitor.md R181): the first error flag of the value read is cleared next,
else `BERR` if it was seen, else the call returned `Ok`. -/
def afterStatusRead (s : State) : State :=
  match firstError s.rdata with
  | some f => goStage (.clearErr f) s
  | none => if hasBit s.rdata Bit.berr then goStage (.clearBerr none) s else afterMonitor s

/-- After the reported flag's clear (42_error_flag_monitor.md R181, R185): `BERR` if it was seen, else the error ends
the command. -/
def afterClearErr (f : ErrFlag) (s : State) : State :=
  if hasBit s.rdata Bit.berr then goStage (.clearBerr (some f)) s else complete (errResult f) s

/-- After the clear of `BERR` (42_error_flag_monitor.md R181, R185). -/
def afterClearBerr (e : Option ErrFlag) (s : State) : State :=
  match e with
  | some f => complete (errResult f) s
  | none => afterMonitor s

/-- After the second read of a poll (41_bus_sequencer.md R142). -/
def afterSecond (s : State) : State :=
  match s.fsm with
  | .master =>
    if hasBit s.rdata Bit.msl && hasBit s.rdata Bit.busy then goStage .leave s else goStage .monitor s
  | .stop => if hasBit s.rdata Bit.stop then goStage .monitor s else complete .ok s
  | _ => s

/-- After the latch-clearing read, by case (41_bus_sequencer.md R153, row `S_ADDRCLR`). -/
def afterLatchClear (s : State) : State :=
  match s.phase with
  | .wr => if 0 < s.wlen then goPoll .txe { s with idx := 0 } else afterPayload .leaveCtrl s
  | .rd => if 2 ≤ s.rlen then goPoll .rxne { s with idx := 0 } else goStage .leaveCtrl s

/-- The received byte is stored (20_memory.md R66, R84; 41_bus_sequencer.md R146). -/
def storeReceived (s : State) : State :=
  { s with host := { s.host with rxbuf := s.host.rxbuf.write s.idx (dataByte s.rdata) } }

/-- After a drain, by case (41_bus_sequencer.md R153, row `S_RXNE(i)`). -/
def afterDrain (s : State) : State :=
  if s.idx + 1 = s.rlen then goPoll .stop (storeReceived s)
  else if s.idx + 2 = s.rlen then goStage .leaveCtrl (storeReceived s)
  else goPoll .rxne { storeReceived s with idx := s.idx + 1 }

/-- After the access made on leaving a state (41_bus_sequencer.md R153). -/
def afterLeave (s : State) : State :=
  match s.fsm with
  | .master => goPoll .addr s
  | .addrclr => afterLatchClear s
  | .txe => goPoll .btf s
  | .btf => goPoll .stop s
  | .rxne => afterDrain s
  | _ => s

/-- After the update of `CTRL1` that follows that access (41_bus_sequencer.md R153). -/
def afterLeaveCtrl (s : State) : State :=
  match s.fsm with
  | .addrclr =>
    match s.phase with
    | .wr => goPoll .stop s
    | .rd => goPoll .rxne { s with idx := 0 }
  | .rxne => goPoll .rxne { s with idx := s.idx + 1 }
  | _ => s

/-- After the access of a configuration step (43_configuration.md R197, R199). -/
def afterCfg (k : CfgStep) (s : State) : State :=
  match k with
  | .c5 => { s with fsm := .cfg .c6 }
  | .c7 => { s with fsm := .cfg .c8 }
  | .c8 => { s with fsm := .cfg .c9 }
  | .c9 => { s with fsm := .cfg .c10 }
  | .c10 => finishInit s
  | .g2 => { s with fsm := .cfg .g3 }
  | .g3 => { s with fsm := .cfg .g4 }
  | .g4 => finishReconf s
  | .c1 => s
  | .c2 => s
  | .c3 => s
  | .c4 => s
  | .c6 => s
  | .g1 => s

/-- What follows the access the block has just made. -/
def advance (s : State) : State :=
  match s.fsm with
  | .cfg k => afterCfg k s
  | _ =>
    match s.stage with
    | .request => goPoll .start s
    | .monitor => afterStatusRead s
    | .clearErr f => afterClearErr f s
    | .clearBerr e => afterClearBerr e s
    | .second => afterSecond s
    | .leave => afterLeave s
    | .leaveCtrl => afterLeaveCtrl s

/-- The configuration steps that make no port access: the strobes `c1` to `c4` and the calculations `c6`, `g1`
(43_configuration.md R197, R199). -/
def cfgInternal (k : CfgStep) (s : State) : State :=
  match k with
  | .c1 => { extStrobe .extClockEnable s with fsm := .cfg .c2 }
  | .c2 => { extReset s with fsm := .cfg .c3 }
  | .c3 => { extStrobe (.extPinScl s.pull.sclPullup) s with fsm := .cfg .c4 }
  | .c4 => { extStrobe (.extPinSda s.pull.sdaPullup) s with fsm := .cfg .c5 }
  | .c6 => cfgCalculate .c7 s
  | .g1 => cfgCalculate .g2 s
  | .c5 => s
  | .c7 => s
  | .c8 => s
  | .c9 => s
  | .c10 => s
  | .g2 => s
  | .g3 => s
  | .g4 => s

/-- A step of a running command that makes no port access. -/
def internalStep (s : State) : State :=
  match s.fsm with
  | .cfg k => cfgInternal k s
  | _ => s

/-! ### Positions -/

/-- `s` at sub-step `g` of state `f`, in phase `p` of command `op`. -/
def atPosition (op : Op) (p : Phase) (f : Fsm) (g : Stage) (s : State) : State :=
  { s with op := op, phase := p, fsm := f, stage := g }

/-- `s` brought to a place where the access the block makes next is the micro-operation `i` (log 19); a command leaves
`s` as it is. -/
def atAccess (i : Instr) (s : State) : State :=
  match i with
  | .init _ _ _ => s
  | .write _ _ => s
  | .read _ _ => s
  | .wrrd _ _ _ => s
  | .reconf _ => s
  | .xiter => s
  | .xact => s
  | .pRdStat1 => atPosition .write .wr .start .monitor s
  | .pRdStat2 => atPosition .write .wr .master .second s
  | .pRdCtrl1 => atPosition .write .wr .stop .second s
  | .pRdData => { atPosition .read .rd .rxne .leave s with idx := 0, rlen := 1 }
  | .pWrData b =>
    { atPosition .write .wr .txe .leave s with
      idx := 0, wlen := 1, host := { s.host with txbuf := s.host.txbuf.write 0 b } }
  | .pSetStart => atPosition .write .wr .start .request s
  | .pSetStartAck => { atPosition .read .rd .start .request s with rlen := 1 }
  | .pNackStop => { atPosition .read .rd .addrclr .leaveCtrl s with rlen := 1 }
  | .pSetStop => { atPosition .write .wr .addrclr .leaveCtrl s with wlen := 0 }
  | .pPeOff => { s with op := .init, fsm := .cfg .c5 }
  | .pPeOn => { s with op := .init, fsm := .cfg .c10 }
  | .pWrFreq d => { s with op := .reconf, fsm := .cfg .g2, plan := { s.plan with divisor := d.toNat } }
  | .pWrCcr fs duty c =>
    { s with
      op := .reconf
      fsm := .cfg .g3
      plan :=
        { s.plan with
          mode := if fs then .fast else .standard
          duty := if duty then .duty16_9 else .duty2_1
          ccr := c.toNat } }
  | .pWrTrise r => { s with op := .reconf, fsm := .cfg .g4, plan := { s.plan with trise := r.toNat } }
  | .pClrTimeout => atPosition .write .wr .start (.clearErr .timeout) s
  | .pClrPecerr => atPosition .write .wr .start (.clearErr .pecerr) s
  | .pClrOvr => atPosition .write .wr .start (.clearErr .ovr) s
  | .pClrAf => atPosition .write .wr .start (.clearErr .af) s
  | .pClrArlo => atPosition .write .wr .start (.clearErr .arlo) s
  | .pClrBerr => atPosition .write .wr .start (.clearBerr none) s

end Sys2Proof.Machine
end

