-- ==== Sys2Proof/Machine/Outside.lean ====
section
/-! DEFINITION. One step of the execution: what happens outside the block first (60_exceptions.md R225, R232;
70_reset_and_hazards.md R245, R248), the acceptance of a command (30_encoding.md R95, R103), and the block's own
step (92_eei_decisions.md D2). -/

namespace Sys2Proof.Machine

/-- Whether a command is running: `FSM` is neither `IDLE` nor `HALT` (10_state.md R21). -/
def State.running (s : State) : Bool :=
  match s.fsm with
  | .idle => false
  | .halt _ => false
  | _ => true

/-- The buffers the host lends for command `i`: a payload for a write phase, a receive buffer for a read phase
(10_state.md R20, R30). -/
def lentFor (i : Instr) (c : HostCmd) (h : HostSide) : HostSide :=
  match i with
  | .write _ _ => { h with txbuf := c.tx }
  | .read _ _ => { h with rxbuf := c.rx }
  | .wrrd _ _ _ => { h with txbuf := c.tx, rxbuf := c.rx }
  | _ => h

/-- An idle block taking a command: the buffers are lent, and a new trace begins (log 20). A block that is not idle
takes nothing. -/
def receive (i : Instr) (c : HostCmd) (s : State) : State :=
  match s.fsm with
  | .idle => { s with host := lentFor i c s.host, trace := [] }
  | _ => s

/-- A descriptor that selects no command (30_encoding.md R103): fatal when it is accepted, which only an idle block
does (60_exceptions.md R225 `Busy`; log 16). -/
def illegalCommand (s : State) : Answer :=
  match s.fsm with
  | .idle => .next (raiseFatal .illegalCommand { s with trace := [] })
  | _ => .refused .busy

/-- A command offered at the command port (30_encoding.md R91, R95). -/
def offer (c : HostCmd) (s : State) : Answer :=
  match decodeDescriptor c.desc with
  | .ok i => exec i (receive i c s)
  | .error _ => illegalCommand s

/-- What happens while no command runs: an idle block is offered the waiting host's next command, if there is one
(00_scope.md R5; 10_state.md R23). In `HALT` nothing happens: that the host issues nothing after a fatal abort is the
model's choice, which R5 leaves open (log 13). -/
def hostIssues (s : State) : Answer :=
  match s.fsm, s.host.program with
  | .idle, c :: cs => offer c { s with host := { s.host with program := cs } }
  | _, _ => .next s

/-- What follows an access's answer. -/
def andAdvance : Answer → Answer
  | .next s => .next (advance s)
  | .fault f => .fault f
  | .refused r => .refused r

/-- One step of a running command (92_eei_decisions.md D2): its next access, executed, and what follows from it; or a
step without an access. A place without a row of the step table is a fault (log 12). -/
def commandStep (s : State) : Answer :=
  match hasRow s with
  | false => .fault .noTransition
  | true =>
    match access s with
    | some i => andAdvance (exec i s)
    | none => .next (internalStep s)

/-- One step with nothing happening outside. -/
def blockStep (s : State) : Answer :=
  match s.running with
  | true => commandStep s
  | false => hostIssues s

/-- The environment drives the bits it owns in register `r` to those of `v`; the block's bits, and flags that stay until
they are cleared, keep their values (00_scope.md R5; 10_state.md R41; 20_memory.md R71, R82; log 31). -/
def environmentActs (r : Reg) (v : Word) (s : State) : State :=
  { s with per := s.per.set r (readAnswer r (s.per.get r) v) }

/-- Another agent leaves register `r` at `v` (60_exceptions.md R225 `ConcurrentAccess`). Before construction nobody
owns the registers and the register changes (log 15). -/
def foreignAccess (r : Reg) (v : Word) (s : State) : Answer :=
  match s.constructed with
  | true => .refused .concurrentAccess
  | false => .next { s with per := s.per.set r v }

/-- The host writes `TXBUF[i]` (60_exceptions.md R225 `PayloadChanged`). -/
def hostWrites (i : Nat) (b : Byte) (s : State) : Answer :=
  match s.running with
  | true => .refused .payloadChanged
  | false => .next { s with host := { s.host with txbuf := s.host.txbuf.write i b } }

/-- The host reads `RXBUF` (70_reset_and_hazards.md R266; 93_implementation_defined.md U20). -/
def hostReads (s : State) : Answer :=
  match s.running with
  | true => .refused .payloadChanged
  | false => .next s

/-- The step of one outside input; `quiet` lets the block step. -/
def inputStep (x : Input) (s : State) : Answer :=
  match x with
  | .quiet => blockStep s
  | .reset p => .next (resetBlock p s)
  | .environment r v => .next (environmentActs r v s)
  | .offer c => offer c s
  | .foreign r v => foreignAccess r v s
  | .hostWrite i b => hostWrites i b s
  | .hostRead => hostReads s

/-- `s` with `xs` still to happen outside. -/
def withInputs (xs : List Input) (s : State) : State := { s with host := { s.host with inputs := xs } }

/-- One step of the execution. -/
def stepOf (s : State) : Answer :=
  match s.host.inputs with
  | [] => blockStep s
  | x :: xs => inputStep x (withInputs xs s)

/-- `s` with the command of descriptor `d` offered next, the buffers as they are. -/
def offering (d : Descriptor) (s : State) : State :=
  withInputs (.offer { desc := d, tx := s.host.txbuf, rx := s.host.rxbuf } :: s.host.inputs) s

/-- `s` with the micro-operation of record `r` the block's next access, undisturbed; `s` itself if the record is
none. -/
def issuing (r : Record) (s : State) : State :=
  match decodeRecord r with
  | .ok i => withInputs (.quiet :: s.host.inputs) (atAccess i s)
  | .error _ => s

end Sys2Proof.Machine
end

