-- ==== Sys2Proof/Machine/Step.lean ====
section
/-! DEFINITION. The step function, and the placing of one instruction where the next step takes it from. -/

namespace Sys2Proof.Machine

/-- One step (Machine/Outside.lean). -/
def step (s : State) : Host.Outcome State Fault Refusal := stepOf s

/-- `s` with one instruction placed where the next step takes it from: a descriptor is offered at the command port, a
record becomes the block's next access (log 13, log 19). -/
def State.withFetchWord (s : State) (nbits w : Nat) : State :=
  if nbits ≤ 40 then issuing (BitVec.ofNat 40 w) s else offering (BitVec.ofNat 64 w) s

end Sys2Proof.Machine
end

