-- ==== Sys2Proof/Machine/Text.lean ====
section
/-! DEFINITION. The spec's text forms: a command as 30_encoding.md R110 writes it, and a port access or strobe as R101
and 43_configuration.md R197 write it in a trace. No rule of the block reads them. -/

namespace Sys2Proof.Machine

/-- One upper-case hexadecimal digit. -/
def hexDigit (n : Nat) : Char := if n < 10 then Char.ofNat (48 + n) else Char.ofNat (55 + n)

/-- The `k` hexadecimal digits of `n`, most significant first. -/
def hexDigits : Nat → Nat → List Char
  | 0, _ => []
  | k + 1, n => hexDigits k (n / 16) ++ [hexDigit (n % 16)]

/-- A byte as two hexadecimal digits (30_encoding.md R110). -/
def byteText (b : Byte) : String := String.ofList (hexDigits 2 b.toNat)

/-- A 16-bit value as a trace writes it (30_encoding.md R101). -/
def wordText (w : Word) : String := "0x" ++ String.ofList (hexDigits 4 w.toNat)

/-- A number in decimal (30_encoding.md R110). -/
def decText (n : Nat) : String := Nat.repr n

/-- A payload in brackets (30_encoding.md R110). -/
def payloadText (bs : List Byte) : String := "[" ++ String.intercalate ", " (bs.map byteText) ++ "]"

/-- `up` or `none` (30_encoding.md R110). -/
def pullText (up : Bool) : String := if up then "up" else "none"

/-- A bit as a field's new value. -/
def bitText (b : Bool) : String := if b then "1" else "0"

/-- A seven-bit address as two hexadecimal digits (30_encoding.md R110). -/
def addrText (a : BitVec 7) : String := byteText (a.zeroExtend 8)

/-- A command line (30_encoding.md R110), `bs` its payload; none for a micro-operation. -/
def commandText (bs : List Byte) : Instr → Option String
  | .init freq scl sda => some ("INIT " ++ decText freq ++ ", scl=" ++ pullText scl ++ ", sda=" ++ pullText sda)
  | .write a _ => some ("WRITE " ++ addrText a ++ ", " ++ payloadText bs)
  | .read a n => some ("READ " ++ addrText a ++ ", " ++ decText n)
  | .wrrd a _ n => some ("WRRD " ++ addrText a ++ ", " ++ payloadText bs ++ ", " ++ decText n)
  | .reconf freq => some ("RECONF " ++ decText freq)
  | .xiter => some "XITER"
  | .xact => some "XACT"
  | _ => none

/-- The value a read returned, after an arrow (30_encoding.md R101). -/
def answerText : Option Word → String
  | none => ""
  | some v => " -> " ++ wordText v

/-- A port access (30_encoding.md R101, R102), `v` the value it returned; none for a command. -/
def accessText (v : Option Word) : Instr → Option String
  | .pRdStat1 => some ("R STAT1" ++ answerText v)
  | .pRdStat2 => some ("R STAT2" ++ answerText v)
  | .pRdCtrl1 => some ("R CTRL1" ++ answerText v)
  | .pRdData => some ("R DATA" ++ answerText v)
  | .pWrData b => some ("W DATA " ++ wordText (dataWord b))
  | .pSetStart => some "U CTRL1 START=1"
  | .pSetStartAck => some "U CTRL1 START=1 ACK=1"
  | .pNackStop => some "U CTRL1 ACK=0 STOP=1"
  | .pSetStop => some "U CTRL1 STOP=1"
  | .pPeOff => some "U CTRL1 PE=0"
  | .pPeOn => some "U CTRL1 PE=1"
  | .pWrFreq d => some ("U CTRL2 FREQ=" ++ decText d.toNat)
  | .pWrCcr fs duty c =>
    some ("U CCR FS=" ++ bitText fs ++ " DUTY=" ++ bitText duty ++ " CCR=" ++ decText c.toNat)
  | .pWrTrise r => some ("U TRISE TRISE=" ++ decText r.toNat)
  | .pClrTimeout => some "C TIMEOUT"
  | .pClrPecerr => some "C PECERR"
  | .pClrOvr => some "C OVR"
  | .pClrAf => some "C AF"
  | .pClrArlo => some "C ARLO"
  | .pClrBerr => some "C BERR"
  | _ => none

/-- A strobe as the configuration vectors write it (20_memory.md R66). -/
def strobeText : Strobe → String
  | .extClockEnable => "ExtClockEnable"
  | .extReset => "ExtReset"
  | .extPinScl up => "ExtPinConfig(SCL," ++ pullText up ++ ")"
  | .extPinSda up => "ExtPinConfig(SDA," ++ pullText up ++ ")"

/-- One line of a trace. -/
def eventText : Event → Option String
  | .strobe x => some (strobeText x)
  | .port r v =>
    match decodeRecord r with
    | .ok i => accessText v i
    | .error _ => none

end Sys2Proof.Machine
end

