-- ==== Sys2Proof/Safety.lean ====
section
/-! DEFINITION. What a good state is: the invariants that claims use. Each is a check that can be computed on a state. -/

namespace Sys2Proof.Machine

/-! ### Runs -/

/-- `k` steps, stopping at the first fault or refusal. -/
def run : Nat → State → Answer
  | 0, s => .next s
  | k + 1, s =>
    match step s with
    | .next t => run k t
    | .fault f => .fault f
    | .refused r => .refused r

/-! ### The sequencer's place -/

/-- The status word read agrees with the monitor's sub-step: a flag is being cleared only because it was seen
(42_error_flag_monitor.md R181, R186). -/
def monitorStage (status : Word) : Stage → Bool
  | .monitor => true
  | .clearErr f => decide (firstError status = some f)
  | .clearBerr e => decide (firstError status = e) && hasBit status Bit.berr
  | .request => false
  | .second => false
  | .leave => false
  | .leaveCtrl => false

/-- The commands that run a read phase (10_state.md R22). -/
def Op.reads : Op → Bool
  | .read => true
  | .wrrd => true
  | .init => false
  | .write => false
  | .reconf => false

/-- The phase belongs to the command, and a read phase has a byte to receive (10_state.md R22, R24). -/
def phaseOk (s : State) : Bool :=
  match s.phase with
  | .wr => s.op.writes
  | .rd => s.op.reads && decide (0 < s.rlen)

/-- Whether a configuration step is one of `INIT`'s. -/
def CfgStep.ofInit : CfgStep → Bool
  | .g1 => false
  | .g2 => false
  | .g3 => false
  | .g4 => false
  | _ => true

/-- `FSM`, the sub-step, `OP`, `PHASE` and `IDX` fit together as in the step table (41_bus_sequencer.md R153) and
10_state.md R22 to R24. -/
def seqOk (s : State) : Bool :=
  match s.fsm with
  | .idle => true
  | .halt _ => true
  | .cfg k => decide (s.op = if k.ofInit then .init else .reconf)
  | .start => phaseOk s && (decide (s.stage = .request) || monitorStage s.rdata s.stage)
  | .master =>
    phaseOk s && (decide (s.stage = .second) || decide (s.stage = .leave) || monitorStage s.rdata s.stage)
  | .addr => phaseOk s && monitorStage s.rdata s.stage
  | .addrclr =>
    phaseOk s &&
      (decide (s.stage = .leave) ||
        (decide (s.stage = .leaveCtrl) &&
          match s.phase with
          | .wr => decide (s.op = .write) && decide (s.wlen = 0)
          | .rd => decide (s.rlen = 1)))
  | .txe =>
    phaseOk s && decide (s.phase = .wr) && decide (s.idx < s.wlen) &&
      (decide (s.stage = .leave) || monitorStage s.rdata s.stage)
  | .btf =>
    phaseOk s && decide (s.phase = .wr) && decide (s.idx < s.wlen) &&
      ((decide (s.stage = .leave) && decide (s.op = .write) && decide (s.idx + 1 = s.wlen)) ||
        monitorStage s.rdata s.stage)
  | .rxne =>
    phaseOk s && decide (s.phase = .rd) && decide (s.idx < s.rlen) &&
      (decide (s.stage = .leave) || (decide (s.stage = .leaveCtrl) && decide (s.idx + 2 = s.rlen)) ||
        monitorStage s.rdata s.stage)
  | .stop =>
    phaseOk s && (decide (s.phase = .rd) || decide (s.op = .write)) &&
      (decide (s.stage = .second) || monitorStage s.rdata s.stage)

/-! ### Configuration -/

/-- A record `TCALC` can return and `CfgWrite` can write (10_state.md R25, R49; 43_configuration.md R202). -/
def Timings.valid (t : Timings) : Bool :=
  decide (2 ≤ t.divisor) && decide (t.divisor ≤ 50) && decide (t.duty = .duty2_1) && decide (t.ccr ≤ 4095) &&
    decide (1 ≤ t.trise) && decide (t.trise ≤ 51) &&
    match t.mode with
    | .standard => decide (4 ≤ t.ccr)
    | .fast => decide (1 ≤ t.ccr)

/-- While `CONSTRUCTED` is 1 there are timings and pins, and the timings are valid (10_state.md R49). -/
def timingsOk (s : State) : Bool :=
  !s.constructed || (s.config.isSome && (s.timings.map Timings.valid).getD false)

/-- The operands of the running configuration command lie in the range its acceptance leaves
(60_exceptions.md R225 `CcrRange`, `WideTarget`). -/
def operandOk (s : State) : Bool := decide (s.freq ≤ Config.targetMax) && !ccrTooWide s.pclkHz s.freq

/-- Where a command runs, `CONSTRUCTED` is as its lifecycle wants it (60_exceptions.md R225), and the calculated
record of a configuration command is valid from the calculation on. -/
def lifecycleOk (s : State) : Bool :=
  match s.fsm with
  | .idle => true
  | .halt _ => true
  | .cfg k =>
    decide (s.constructed = !k.ofInit) &&
      match k with
      | .c7 => s.plan.valid
      | .c8 => s.plan.valid
      | .c9 => s.plan.valid
      | .c10 => s.plan.valid
      | .g2 => s.plan.valid
      | .g3 => s.plan.valid
      | .g4 => s.plan.valid
      | _ => operandOk s
  | _ => s.constructed

/-- `CTRL2.FREQ` holds the record's divisor (30_encoding.md R98). -/
def freqHolds (t : Timings) (p : Periph) : Bool := decide (p.ctrl2.extractLsb' 0 6 = BitVec.ofNat 6 t.divisor)

/-- `CCR.FS`, `CCR.DUTY` and `CCR.CCR` hold the record's mode, duty and divisor (30_encoding.md R97). -/
def ccrHolds (t : Timings) (p : Periph) : Bool :=
  decide (hasBit p.ccr 15 = fsOf t.mode) && decide (hasBit p.ccr 14 = dutyOf t.duty) &&
    decide (p.ccr.extractLsb' 0 12 = BitVec.ofNat 12 t.ccr)

/-- `TRISE.TRISE` holds the record's rise time (30_encoding.md R98). -/
def triseHolds (t : Timings) (p : Periph) : Bool := decide (p.trise.extractLsb' 0 6 = BitVec.ofNat 6 t.trise)

/-- The three clock registers hold the record (43_configuration.md R197, "State after an `Ok` completion"). -/
def clockHolds (t : Timings) (p : Periph) : Bool := freqHolds t p && ccrHolds t p && triseHolds t p

/-- What the clock registers hold: the stored timings, but during `CfgWrite` the fields already written hold the new
record (43_configuration.md R204). -/
def clockOk (s : State) : Bool :=
  match s.fsm with
  | .cfg .c8 => freqHolds s.plan s.per
  | .cfg .c9 => freqHolds s.plan s.per && ccrHolds s.plan s.per
  | .cfg .c10 => clockHolds s.plan s.per
  | .cfg .g3 => freqHolds s.plan s.per
  | .cfg .g4 => freqHolds s.plan s.per && ccrHolds s.plan s.per
  | _ => !s.constructed || (s.timings.map (fun t => clockHolds t s.per)).getD false

/-- While `CONSTRUCTED` is 1 the peripheral is enabled (60_exceptions.md R236). -/
def peOk (s : State) : Bool := !s.constructed || hasBit s.per.ctrl1 Bit.pe

/-- Between `c5` and `c10` of `INIT` the peripheral is disabled (60_exceptions.md R236). -/
def peOffOk (s : State) : Bool :=
  match s.fsm with
  | .cfg .c6 => !hasBit s.per.ctrl1 Bit.pe
  | .cfg .c7 => !hasBit s.per.ctrl1 Bit.pe
  | .cfg .c8 => !hasBit s.per.ctrl1 Bit.pe
  | .cfg .c9 => !hasBit s.per.ctrl1 Bit.pe
  | .cfg .c10 => !hasBit s.per.ctrl1 Bit.pe
  | _ => true

/-- No other agent is about to touch the registers: the premise of 43_configuration.md R197 ("provided the
environment does not change block-owned fields"). -/
def undisturbed (s : State) : Bool :=
  s.host.inputs.all fun x =>
    match x with
    | .foreign _ _ => false
    | _ => true

/-! ### The trace of the running command -/

/-- Whether an event is a port access that decodes to an instruction with property `p`. -/
def isAccess (p : Instr → Bool) : Event → Bool
  | .strobe _ => false
  | .port r _ =>
    match decodeRecord r with
    | .ok i => p i
    | .error _ => false

/-- `P.WR_DATA`. -/
def isDataWrite : Instr → Bool
  | .pWrData _ => true
  | _ => false

/-- `P.RD_DATA`. -/
def isDataRead (i : Instr) : Bool := decide (i = .pRdData)

/-- A request of STOP: `P.SET_STOP` or `P.NACK_STOP`. -/
def isStopRequest (i : Instr) : Bool := decide (i = .pSetStop) || decide (i = .pNackStop)

/-- How many accesses with property `p` a trace holds. -/
def accessesIn (p : Instr → Bool) (es : List Event) : Nat := es.countP (isAccess p)

/-- How many accesses with property `p` the current command has made. -/
def countAccess (p : Instr → Bool) (s : State) : Nat := accessesIn p s.trace

/-- The byte an event writes to `DATA`, if it does. -/
def byteWritten : Event → Option Byte
  | .strobe _ => none
  | .port r _ =>
    match decodeRecord r with
    | .ok (.pWrData b) => some b
    | _ => none

/-- The bytes a trace (newest first) writes to `DATA`, the first one first. -/
def bytesIn (es : List Event) : List Byte := es.reverse.filterMap byteWritten

/-- Whether a trace holds nothing but port accesses. -/
def allPort (es : List Event) : Bool := es.all (isAccess fun _ => true)

/-- Writes to `DATA` the write phase of a command makes: the address byte and the payload (41_bus_sequencer.md R156
item 5). -/
def writePhaseWrites (s : State) : Nat := if s.op.writes then 1 + s.wlen else 0

/-- Writes to `DATA` made where the sequencer stands (41_bus_sequencer.md R156 item 5). -/
def writesDue (s : State) : Nat :=
  match s.phase with
  | .wr =>
    match s.fsm with
    | .start => 0
    | .master => 0
    | .txe => 1 + s.idx
    | .btf => 2 + s.idx
    | .stop => 1 + s.wlen
    | _ => 1
  | .rd =>
    match s.fsm with
    | .start => writePhaseWrites s
    | .master => writePhaseWrites s
    | _ => writePhaseWrites s + 1

/-- Reads of `DATA` made where the sequencer stands (41_bus_sequencer.md R156 item 6). -/
def drainsDue (s : State) : Nat :=
  match s.fsm with
  | .rxne => if s.stage = .leaveCtrl then s.idx + 1 else s.idx
  | .stop => if s.phase = .rd then s.rlen else 0
  | _ => 0

/-- STOP requests made where the sequencer stands (41_bus_sequencer.md R156 item 7). -/
def stopsDue (s : State) : Nat :=
  match s.fsm with
  | .rxne => if s.idx + 1 = s.rlen then 1 else 0
  | .stop => 1
  | _ => 0

/-- The three counts of a trace. -/
def countsAre (w d p : Nat) (s : State) : Bool :=
  decide (countAccess isDataWrite s = w) && decide (countAccess isDataRead s = d) &&
    decide (countAccess isStopRequest s = p)

/-- The accesses of a transfer command are those its place, and at its end its lengths, call for
(41_bus_sequencer.md R156 items 5 to 7). -/
def countsOk (s : State) : Bool :=
  match s.fsm with
  | .halt _ => true
  | .cfg _ => true
  | .idle =>
    match s.result with
    | some .ok =>
      match s.op with
      | .write => countsAre (1 + s.wlen) 0 1 s
      | .read => countsAre 1 s.rlen 1 s
      | .wrrd => countsAre (2 + s.wlen) s.rlen 1 s
      | .init => true
      | .reconf => true
    | _ => true
  | _ => countsAre (writesDue s) (drainsDue s) (stopsDue s) s

/-! ### The acknowledge contract -/

/-- `P.NACK_STOP`, the access `r9`. -/
def isNackStop (i : Instr) : Bool := decide (i = .pNackStop)

/-- The events of a trace (newest first) since its last `r9`. -/
def sinceNackStop (es : List Event) : List Event := es.takeWhile fun e => !isAccess isNackStop e

/-- `r9` was made once, and `k` reads of `DATA` after it. -/
def nackedThenRead (k : Nat) (s : State) : Bool :=
  decide (countAccess isNackStop s = 1) && decide (accessesIn isDataRead (sinceNackStop s.trace) = k)

/-- `r9` was not made yet. -/
def notNacked (s : State) : Bool := decide (countAccess isNackStop s = 0)

/-- The ordering of the read phase (41_bus_sequencer.md R149, R151): until the last byte is awaited `ACK` is 1 and `r9` was
not made; where it is awaited or drained `ACK` is 0, `r9` was made, and no read of `DATA` came after it; in the STOP poll
of a read phase exactly one did. A write phase makes no `r9`. -/
def ackOk (s : State) : Bool :=
  match s.fsm with
  | .idle => true
  | .halt _ => true
  | .cfg _ => true
  | .rxne =>
    if s.idx + 1 = s.rlen then !hasBit s.per.ctrl1 Bit.ack && nackedThenRead 0 s
    else hasBit s.per.ctrl1 Bit.ack && notNacked s
  | .stop =>
    match s.phase with
    | .wr => notNacked s
    | .rd => !hasBit s.per.ctrl1 Bit.ack && nackedThenRead 1 s
  | .start => notNacked s && (decide (s.phase = .wr) || decide (s.stage = .request) || hasBit s.per.ctrl1 Bit.ack)
  | _ => notNacked s && (decide (s.phase = .wr) || hasBit s.per.ctrl1 Bit.ack)

/-! ### What an access rests on -/

/-- The monitor call on a status word reported nothing (42_error_flag_monitor.md R181). -/
def calm (status : Word) : Bool := decide (firstError status = none)

/-- Whether an event is a read with record `r` that returned a value with property `p`. -/
def isReadOf (r : Record) (p : Word → Bool) : Event → Bool
  | .port q (some v) => decide (q = r) && p v
  | _ => false

/-- Whether a trace (newest first) ends in a `STAT1` read that returned a value with property `p`. -/
def endsInStatus (p : Word → Bool) : List Event → Bool
  | [] => false
  | e :: _ => isReadOf 0x1400000000 p e

/-- Whether a trace ends in a monitor call that reported nothing, on a status word with property `p`: the read, with at
most a `PClear(BERR)` after it (41_bus_sequencer.md R156 item 3; 42_error_flag_monitor.md R188). -/
def endsInCall (p : Word → Bool) : List Event → Bool
  | [] => false
  | e :: es =>
    isReadOf 0x1400000000 (fun v => calm v && p v) e ||
      (decide (e = .port 0xD401000000 none) && endsInStatus (fun v => calm v && p v) es)

/-- Whether a trace ends in such a call and then a read with record `r` that returned a value with property `q`. -/
def endsInRead (r : Record) (p q : Word → Bool) : List Event → Bool
  | [] => false
  | e :: es => isReadOf r q e && endsInCall p es

/-- Whether a trace ends in such a call and then a `STAT2` read that returned a value with property `q`. -/
def endsInSecond (p q : Word → Bool) (es : List Event) : Bool := endsInRead 0x1800000000 p q es

/-- The latch-clearing read was made, directly after the call that saw `ADDR`. -/
def latchCleared (s : State) : Bool := endsInSecond (fun v => hasBit v Bit.addr) (fun _ => true) s.trace

/-- The poll of awaited bit `n` was left: the call's status word shows it, and is the snapshot. -/
def pollLeft (n : Nat) (s : State) : Bool :=
  hasBit s.snap n && endsInCall (fun v => decide (v = s.snap)) s.trace

/-- What stands directly before the START request of a phase: nothing, as it is the command's first access
(41_bus_sequencer.md R156 item 1), or for the repeated START of `WRRD` the last byte's successful `BTF` poll
(70_reset_and_hazards.md R264), without a payload the latch-clearing read (41_bus_sequencer.md R153). -/
def requestOk (s : State) : Bool :=
  if s.op = .wrrd ∧ s.phase = .rd then
    if s.wlen = 0 then latchCleared s else pollLeft Bit.btf s
  else decide (s.trace = [])

/-- Every access on leaving a state directly follows what lets it (41_bus_sequencer.md R153, R156 items 1 to 4): the
address byte a monitor call without an error and then a `STAT2` read with `MSL` and `BUSY`; the latch-clearing read, a
payload byte, the STOP request of `WRITE` and a drain a monitor call without an error whose status word shows the awaited
flag; the repeated START of `WRRD` such a call with `BTF` or, without a payload, the latch-clearing read (`requestOk`);
an update of `CTRL1` (STOP, `r9`) after the latch-clearing read that read, and the `r9` after a drain the read of `DATA`
and before it the call with `RXNE`. The second read of the master and STOP polls follows a monitor call without an error,
and a clear of `BERR` alone the status read. Item 4 is checked of the status read that leaves `S_ADDR` only: a status word
with `ADDR` seen in another poll is followed as the step table R153 says (DEDUCED, log 33). -/
def exitOk (s : State) : Bool :=
  match s.fsm, s.stage with
  | .start, .request => requestOk s
  | .master, .leave => endsInSecond (fun _ => true) (fun v => hasBit v Bit.msl && hasBit v Bit.busy) s.trace
  | .master, .second => endsInCall (fun _ => true) s.trace
  | .stop, .second => endsInCall (fun _ => true) s.trace
  | .addrclr, .leave => pollLeft Bit.addr s
  | .addrclr, .leaveCtrl => latchCleared s
  | .txe, .leave => pollLeft Bit.txe s
  | .btf, .leave => pollLeft Bit.btf s
  | .rxne, .leave => pollLeft Bit.rxne s
  | .rxne, .leaveCtrl =>
    hasBit s.snap Bit.rxne && endsInRead 0x1000000000 (fun v => decide (v = s.snap)) (fun _ => true) s.trace
  | f, .clearBerr none => !f.polls || endsInStatus (fun v => decide (v = s.rdata)) s.trace
  | _, _ => true

/-! ### An environment that makes every poll succeed at its first iteration -/

/-- What a read finds (41_bus_sequencer.md R142). -/
inductive Want where
  /-- `STAT1` with flag `n`, no error flag and no `BERR`. -/
  | flag (n : Nat)
  /-- `STAT1` without an error flag and without `BERR`. -/
  | noError
  /-- `STAT2` with `MSL` and `BUSY`. -/
  | master
  /-- Anything: the value is discarded. -/
  | any
  /-- `DATA` with byte `b` in its low half. -/
  | byte (b : Byte)
  /-- `CTRL1` with `STOP` clear. -/
  | stopped
  deriving DecidableEq, Repr

/-- Whether an answer is what a read is to find. -/
def Want.met (w : Want) (a : Word) : Bool :=
  match w with
  | .flag n => hasBit a n && calm a && !hasBit a Bit.berr
  | .noError => calm a && !hasBit a Bit.berr
  | .master => hasBit a Bit.msl && hasBit a Bit.busy
  | .any => true
  | .byte b => decide (dataByte a = b)
  | .stopped => !hasBit a Bit.stop

/-- Whether a script begins with answers that are what the reads are to find, in their order. -/
def metBy : List Want → List Word → Bool
  | [], _ => true
  | _ :: _, [] => false
  | w :: ws, a :: as => w.met a && metBy ws as

/-- The reads of a phase up to the latch-clearing one (41_bus_sequencer.md R143, R144). -/
def wantsStart : List Want := [.flag Bit.sb, .noError, .master, .flag Bit.addr, .any]

/-- The reads of `n` payload bytes (41_bus_sequencer.md R145). -/
def wantsPayload : Nat → List Want
  | 0 => []
  | n + 1 => .flag Bit.txe :: .flag Bit.btf :: wantsPayload n

/-- The reads that receive the bytes `bs` (41_bus_sequencer.md R146). -/
def wantsBytes : List Byte → List Want
  | [] => []
  | b :: bs => .flag Bit.rxne :: .byte b :: wantsBytes bs

/-- The reads of the STOP poll (41_bus_sequencer.md R142 `PollStop`). -/
def wantsStop : List Want := [.noError, .stopped]

/-- The reads of a fault-free `WRITE` of `n` bytes (41_bus_sequencer.md R150). -/
def wantsWrite (n : Nat) : List Want := wantsStart ++ wantsPayload n ++ wantsStop

/-- The reads of a fault-free `READ` that receives `bs` (41_bus_sequencer.md R151). -/
def wantsRead (bs : List Byte) : List Want := wantsStart ++ wantsBytes bs ++ wantsStop

/-- The reads of a fault-free `WRRD` of `n` bytes that receives `bs` (41_bus_sequencer.md R152). -/
def wantsWrrd (n : Nat) (bs : List Byte) : List Want := wantsStart ++ wantsPayload n ++ wantsRead bs

/-- The payload of a command: bytes `i` to `i + n - 1` of a buffer (10_state.md R30). -/
def payload (m : Memory) : Nat → Nat → List Byte
  | _, 0 => []
  | i, n + 1 => m.read i :: payload m (i + 1) n

/-! ### Shapes of a register access -/

/-- `v` is `old` with the bits of `new` at their new values and every other bit as it is (20_memory.md R64). -/
def bitsSet (new : List (Nat × Bool)) (old v : Word) : Prop :=
  (∀ nb ∈ new, hasBit v nb.1 = nb.2) ∧ ∀ k, (∀ b, (k, b) ∉ new) → hasBit v k = hasBit old k

/-- `i` completes in every state, gives the bits `new` of register `r` their values, leaves one record in the trace, and
changes nothing else. -/
def updates (i : Instr) (r : Reg) (new : List (Nat × Bool)) : Prop :=
  ∀ s : State, ∃ v rec, encode i = .record rec ∧ bitsSet new (s.per.get r) v ∧
    exec i s = .next { s with per := s.per.set r v, trace := .port rec none :: s.trace }

/-- The bits of a number as new values of the bits from `k` on. -/
def fieldBits (k : Nat) {n : Nat} (v : BitVec n) : List (Nat × Bool) :=
  (List.range n).map fun j => (k + j, v.getLsbD j)

/-- The state after a read of register `r` that returned `v` and left the peripheral at `p`. -/
def afterReadOf (p : Periph) (rec : Record) (v : Word) (s : State) : State :=
  { s with per := p, env := s.env.advance, rdata := v, trace := .port rec (some v) :: s.trace }

/-- The block stands at sub-step `g` of state `f` with nothing to happen outside. -/
def standsAt (f : Fsm) (g : Stage) (s : State) : Prop := s.host.inputs = [] ∧ s.fsm = f ∧ s.stage = g

/-- No error flag and no `BERR` in `STAT1` (41_bus_sequencer.md R150: "every poll succeeds at its first iteration and
never sees `BERR`"). -/
def cleanStatus (s : State) : Bool := calm s.per.stat1 && !hasBit s.per.stat1 Bit.berr

/-! ### Results and buffers -/

/-- The completion codes the block produces (30_encoding.md R105; 60_exceptions.md R217, R223). -/
def resultOk (s : State) : Bool :=
  match s.result with
  | some .bus => false
  | some .zeroLengthTransfer => false
  | _ => true

/-- A command's buffers are in the one form. -/
def HostCmd.wf (c : HostCmd) : Bool := c.tx.wf && c.rx.wf

/-- An input's buffers are in the one form. -/
def Input.wf : Input → Bool
  | .offer c => c.wf
  | _ => true

/-- Every host buffer is in the one form (log 18). -/
def memoryOk (s : State) : Bool :=
  s.host.txbuf.wf && s.host.rxbuf.wf && s.host.program.all HostCmd.wf && s.host.inputs.all Input.wf

end Sys2Proof.Machine
end

