-- ==== Sys2Proof/Certificates/Slice0/Obligations.lean ====
section
/-! DEFINITION. The statements for the provers. Each says which rule of the spec it formalises, or which sections it
rests on. -/

open Sys2Proof Sys2Proof.Machine

/-! ## Encodings -/

/-- Every well-formed instruction, of every family, with every operand at every value its encoding admits, decodes from
its own encoding (30_encoding.md R92, R93, R95, R101, R102). -/
def Obligations.DecodeOfEncode : Prop :=
  ∀ i : Instr, i.wellFormed = true → decode (encode i) = .ok i

/-- A descriptor that decodes is the encoding of what it decodes to, but for `XITER` and `XACT`, whose operand bits are
not examined (30_encoding.md R94, R95, R104); what it decodes to is a well-formed host command. -/
def Obligations.EncodeOfDecodedDescriptor : Prop :=
  ∀ (d : Descriptor) (i : Instr), decodeDescriptor d = .ok i →
    i.wellFormed = true ∧ i.isPort = false ∧ (i ≠ .xiter → i ≠ .xact → encode i = .descriptor d)

/-- A record that decodes is the encoding of what it decodes to, and that is one of the twenty micro-operations; so no
other record decodes (30_encoding.md R101, R102). -/
def Obligations.EncodeOfDecodedRecord : Prop :=
  ∀ (r : Record) (i : Instr), decodeRecord r = .ok i → i.wellFormed = true ∧ i.isPort = true ∧ encode i = .record r

/-- The opcode map (30_encoding.md R95): a descriptor decodes to a row's command exactly when it matches the row, so at
most one row matches, and it decodes to nothing but a row's command. -/
def Obligations.OpcodeMap : Prop :=
  ∀ d : Descriptor,
    ((d &&& 0xFFFFFFFC00000000 = 0x0100000000000000) ↔ ∃ f scl sda, decodeDescriptor d = .ok (.init f scl sda)) ∧
    ((d &&& 0xFF800000FFFFFFFF = 0x0200000000000000) ↔ ∃ a w, decodeDescriptor d = .ok (.write a w)) ∧
    ((d &&& 0xFF80FFFF0000FFFF = 0x0300000000000000) ↔ ∃ a n, decodeDescriptor d = .ok (.read a n)) ∧
    ((d &&& 0xFF8000000000FFFF = 0x0400000000000000) ↔ ∃ a w n, decodeDescriptor d = .ok (.wrrd a w n)) ∧
    ((d &&& 0xFFFFFFFF00000000 = 0x0500000000000000) ↔ ∃ f, decodeDescriptor d = .ok (.reconf f)) ∧
    ((d &&& 0xFF00000000000000 = 0x0600000000000000) ↔ decodeDescriptor d = .ok .xiter) ∧
    ((d &&& 0xFF00000000000000 = 0x0700000000000000) ↔ decodeDescriptor d = .ok .xact) ∧
    (∀ i, decodeDescriptor d = .ok i → i.isPort = false)

/-- Where the operands of a descriptor stand (30_encoding.md R92, R93): each field is an unsigned number used as it
stands. -/
def Obligations.DescriptorFields : Prop :=
  ∀ d : Descriptor,
    (∀ f scl sda, decodeDescriptor d = .ok (.init f scl sda) →
      f = d.toNat % 2 ^ 32 ∧ scl = d.getLsbD 32 ∧ sda = d.getLsbD 33) ∧
    (∀ a w, decodeDescriptor d = .ok (.write a w) →
      a.toNat = d.toNat / 2 ^ 48 % 2 ^ 7 ∧ w = d.toNat / 2 ^ 32 % 2 ^ 16) ∧
    (∀ a n, decodeDescriptor d = .ok (.read a n) →
      a.toNat = d.toNat / 2 ^ 48 % 2 ^ 7 ∧ n = d.toNat / 2 ^ 16 % 2 ^ 16) ∧
    (∀ a w n, decodeDescriptor d = .ok (.wrrd a w n) →
      a.toNat = d.toNat / 2 ^ 48 % 2 ^ 7 ∧ w = d.toNat / 2 ^ 32 % 2 ^ 16 ∧ n = d.toNat / 2 ^ 16 % 2 ^ 16) ∧
    (∀ f, decodeDescriptor d = .ok (.reconf f) → f = d.toNat % 2 ^ 32)

/-- Illegal opcodes (30_encoding.md R103): opcode 0x00 and opcodes 0x08 to 0xFF select no command, and accepting such a
descriptor is `Fatal(IllegalCommand)` with no port access and no strobe; only the new, empty trace is the model's
(log 20). -/
def Obligations.IllegalOpcodes : Prop :=
  ∀ (c : HostCmd) (s : State), (c.desc.toNat / 2 ^ 56 = 0 ∨ 8 ≤ c.desc.toNat / 2 ^ 56) →
    (∀ i, decodeDescriptor c.desc ≠ .ok i) ∧
    (s.fsm = .idle → offer c s = .next { s with fsm := .halt .illegalCommand, trace := [] })

/-- Reserved fields (30_encoding.md R104): opcodes 0x01 to 0x05 with a reserved bit or a must-be-zero operand field that
is not 0 are illegal as in R103; only the new, empty trace is the model's (log 20). -/
def Obligations.ReservedFields : Prop :=
  ∀ (c : HostCmd) (s : State),
    ((c.desc.toNat / 2 ^ 56 = 1 ∧ c.desc.toNat / 2 ^ 34 % 2 ^ 22 ≠ 0) ∨
      (c.desc.toNat / 2 ^ 56 = 2 ∧
        (c.desc.toNat / 2 ^ 55 % 2 ≠ 0 ∨ c.desc.toNat / 2 ^ 16 % 2 ^ 16 ≠ 0 ∨ c.desc.toNat % 2 ^ 16 ≠ 0)) ∨
      (c.desc.toNat / 2 ^ 56 = 3 ∧
        (c.desc.toNat / 2 ^ 55 % 2 ≠ 0 ∨ c.desc.toNat / 2 ^ 32 % 2 ^ 16 ≠ 0 ∨ c.desc.toNat % 2 ^ 16 ≠ 0)) ∨
      (c.desc.toNat / 2 ^ 56 = 4 ∧ (c.desc.toNat / 2 ^ 55 % 2 ≠ 0 ∨ c.desc.toNat % 2 ^ 16 ≠ 0)) ∨
      (c.desc.toNat / 2 ^ 56 = 5 ∧ (c.desc.toNat / 2 ^ 34 % 2 ^ 22 ≠ 0 ∨ c.desc.toNat / 2 ^ 32 % 2 ^ 2 ≠ 0))) →
    (∀ i, decodeDescriptor c.desc ≠ .ok i) ∧
    (s.fsm = .idle → offer c s = .next { s with fsm := .halt .illegalCommand, trace := [] })

/-- The address byte (30_encoding.md R96): `(zext_8(a) << 1) | dir`, the address in bits 7:1 and the direction in
bit 0. -/
def Obligations.AddressByte : Prop :=
  ∀ (a : BitVec 7) (dir : Bool),
    (addrByte a dir).toNat = 2 * a.toNat + dir.toNat ∧ (addrByte a dir).getLsbD 0 = dir ∧
    ∀ k, (addrByte a dir).getLsbD (k + 1) = a.getLsbD k

/-- Words written out from the encodings of 30_encoding.md R92, R93, R95 and R102, one or more of each family. -/
def Obligations.DecodedWords : Prop :=
  decodeDescriptor 0x01000003000186A0 = .ok (.init 100000 true true) ∧
  decodeDescriptor 0x0100000200000000 = .ok (.init 0 false true) ∧
  decodeDescriptor 0x0250000200000000 = .ok (.write 0x50 2) ∧
  decodeDescriptor 0x0348000000020000 = .ok (.read 0x48 2) ∧
  decodeDescriptor 0x043C000100020000 = .ok (.wrrd 0x3C 1 2) ∧
  decodeDescriptor 0x0500000000061A80 = .ok (.reconf 400000) ∧
  decodeDescriptor 0x06FFFFFFFFFFFFFF = .ok .xiter ∧
  decodeDescriptor 0x0700000000000000 = .ok .xact ∧
  decodeRecord 0x1400000000 = .ok .pRdStat1 ∧
  decodeRecord 0x50FFFF00A0 = .ok (.pWrData 0xA0) ∧
  decodeRecord 0x8006000200 = .ok .pNackStop ∧
  decodeRecord 0x84003F0024 = .ok (.pWrFreq 36) ∧
  decodeRecord 0x9CCFFF801E = .ok (.pWrCcr true false 30) ∧
  decodeRecord 0xD401000000 = .ok .pClrBerr ∧
  decodeTableWord 40 0xD404000000 = some .pClrAf ∧
  decodeTableWord 64 0x0600000000000000 = some .xiter

/-! ## The timing calculator -/

/-- The preconditions (40_timing_calculator.md R122, R123): `TCALC` is `Fatal(DivisorRange)` exactly when the divisor is
outside 2 to 50, that is when the clock is outside 2,000,000 to 50,999,999, whatever the target; with a valid divisor it
is `Fatal(TargetZero)` exactly when the target is 0, so a call that breaks both reports `DivisorRange`. -/
def Obligations.TcalcFatal : Prop :=
  ∀ clock target : Nat,
    (tcalc clock target = .error .divisorRange ↔ clock / 1000000 < 2 ∨ 50 < clock / 1000000) ∧
    (tcalc clock target = .error .divisorRange ↔ ¬(2000000 ≤ clock ∧ clock ≤ 50999999)) ∧
    (tcalc clock target = .error .targetZero ↔ 2 ≤ clock / 1000000 ∧ clock / 1000000 ≤ 50 ∧ target = 0)

/-- The record of every successful call (40_timing_calculator.md R121, R124, R125, R126, R127). -/
def Obligations.TcalcRecord : Prop :=
  ∀ clock target : Nat, 2 ≤ clock / 1000000 → clock / 1000000 ≤ 50 → 0 < target →
    (target ≤ 100000 → tcalc clock target =
      .ok { divisor := clock / 1000000, mode := .standard, duty := .duty2_1, ccr := max 4 (clock / (target * 2)),
            trise := clock / 1000000 + 1 }) ∧
    (100000 < target → tcalc clock target =
      .ok { divisor := clock / 1000000, mode := .fast, duty := .duty2_1, ccr := max 1 (clock / (target * 3)),
            trise := clock / 1000000 * 300 / 1000 + 1 })

/-- The consequences for every successful call (40_timing_calculator.md R131), the three columns of its table: ranges,
when a clamp binds, the least and greatest values and where they are taken, and what fits the 12-bit field. -/
def Obligations.TcalcBounds : Prop :=
  (∀ clock target t, tcalc clock target = .ok t → target ≤ 100000 →
    2 ≤ t.divisor ∧ t.divisor ≤ 50 ∧ t.mode = .standard ∧ t.duty = .duty2_1 ∧ t.trise = t.divisor + 1 ∧
    10 ≤ t.ccr ∧ t.ccr = clock / (target * 2) ∧ t.ccr ≤ 25499999) ∧
  (∀ clock target t, tcalc clock target = .ok t → 100000 < target →
    2 ≤ t.divisor ∧ t.divisor ≤ 50 ∧ t.mode = .fast ∧ t.duty = .duty2_1 ∧ 1 ≤ t.trise ∧ t.trise ≤ 16 ∧
    (t.divisor ≤ 3 ↔ t.trise = 1) ∧ (t.divisor = 50 ↔ t.trise = 16) ∧
    1 ≤ t.ccr ∧ t.ccr = max 1 (clock / (target * 3)) ∧ (t.ccr ≠ clock / (target * 3) ↔ clock < target * 3) ∧
    (clock < target * 3 → t.ccr = 1) ∧ t.ccr ≤ 169 ∧ t.ccr ≤ 4095) ∧
  (∀ clock target t, tcalcWith .duty16_9 clock target = .ok t → 100000 < target →
    2 ≤ t.divisor ∧ t.divisor ≤ 50 ∧ t.mode = .fast ∧ t.duty = .duty16_9 ∧ 1 ≤ t.trise ∧ t.trise ≤ 16 ∧
    1 ≤ t.ccr ∧ t.ccr = max 1 (clock / (target * 25)) ∧ (t.ccr ≠ clock / (target * 25) ↔ clock < target * 25) ∧
    (clock < target * 25 → t.ccr = 1) ∧ t.ccr ≤ 20 ∧ t.ccr ≤ 4095) ∧
  (tcalc 2000000 100000).toOption.map Timings.ccr = some 10 ∧
  (tcalc 50999999 1).toOption.map Timings.ccr = some 25499999 ∧
  (tcalc 50999999 100001).toOption.map Timings.ccr = some 169 ∧
  (tcalcWith .duty16_9 50999999 100001).toOption.map Timings.ccr = some 20

/-- Monotonicity (40_timing_calculator.md R132): for a fixed valid clock `ccr` does not increase with the target inside one
regime, and it drops at the boundary, where the divider changes from 2 to 3 and `trise` from `divisor + 1` to the scaled
form; for a clock of 8,000,000 from 40 to 26. -/
def Obligations.TcalcMonotone : Prop :=
  (∀ clock low high a b, tcalc clock low = .ok a → tcalc clock high = .ok b → low ≤ high →
    (low ≤ 100000 ↔ high ≤ 100000) → b.ccr ≤ a.ccr) ∧
  (∀ clock a b, tcalc clock 100000 = .ok a → tcalc clock 100001 = .ok b →
    b.ccr < a.ccr ∧ a.ccr = max 4 (clock / (100000 * 2)) ∧ b.ccr = max 1 (clock / (100001 * 3)) ∧
    a.trise = a.divisor + 1 ∧ b.trise = b.divisor * 300 / 1000 + 1) ∧
  (tcalc 8000000 100000).toOption.map Timings.ccr = some 40 ∧
  (tcalc 8000000 100001).toOption.map Timings.ccr = some 26

/-! ## The port micro-operations -/

/-- Field updates (20_memory.md R64; the fields of 30_encoding.md R102): each completes in every state, gives the named
fields their new values, leaves every other bit of the register and all other state as it is, and leaves its own
encoding in the trace. -/
def Obligations.FieldUpdates : Prop :=
  updates .pSetStart .ctrl1 [(8, true)] ∧
  updates .pSetStartAck .ctrl1 [(8, true), (10, true)] ∧
  updates .pNackStop .ctrl1 [(10, false), (9, true)] ∧
  updates .pSetStop .ctrl1 [(9, true)] ∧
  updates .pPeOff .ctrl1 [(0, false)] ∧
  updates .pPeOn .ctrl1 [(0, true)] ∧
  (∀ d, updates (.pWrFreq d) .ctrl2 (fieldBits 0 d)) ∧
  (∀ fs duty c, updates (.pWrCcr fs duty c) .ccr ((15, fs) :: (14, duty) :: fieldBits 0 c)) ∧
  (∀ r, updates (.pWrTrise r) .trise (fieldBits 0 r))

/-- Flag clears (20_memory.md R65): one step after which the flag is 0 and every other bit of `STAT1`, and all other
state, is as it was; a flag the environment sets again is read as set again. -/
def Obligations.FlagClears : Prop :=
  updates .pClrTimeout .stat1 [(14, false)] ∧
  updates .pClrPecerr .stat1 [(12, false)] ∧
  updates .pClrOvr .stat1 [(11, false)] ∧
  updates .pClrAf .stat1 [(10, false)] ∧
  updates .pClrArlo .stat1 [(9, false)] ∧
  updates .pClrBerr .stat1 [(8, false)] ∧
  ∀ (s : State) (k : Nat), hasBit s.env.answer k = true → hasBit (s.readValue .stat1) k = true

/-- The data write (20_memory.md R63): the whole register `DATA` takes `zext_16(b)`; nothing else changes. -/
def Obligations.DataWrite : Prop :=
  ∀ (b : Byte) (s : State), ∃ v : Word, v.toNat = b.toNat ∧
    exec (.pWrData b) s =
      .next { s with per := { s.per with data := v }, trace := .port (packP 1 0x10 0xFFFF v) none :: s.trace }

/-- The status read: the value is the environment's answer with the flags that stay 1 until they are cleared, the
error flags and `BERR` (20_memory.md R70, R71) and the address latch (10_state.md R42); nothing but the read's own effects
happens, and no element of the block is written but the value read (42_error_flag_monitor.md R180; log 30). That no other
bit is bound is the model's reading (log 1, log 2). -/
def Obligations.StatusRead : Prop :=
  ∀ s : State, ∃ v : Word,
    (∀ k, hasBit v k = (hasBit s.env.answer k ||
      (decide (k ∈ [1, 8, 9, 10, 11, 12, 14]) && hasBit s.per.stat1 k))) ∧
    exec .pRdStat1 s =
      .next (afterReadOf { s.per with stat1 := v, addrRead := hasBit v 1 } 0x1400000000 v s)

/-- The secondary-status read (20_memory.md R76): performed after a `STAT1` read that returned `ADDR` = 1 it clears the
address latch and no other bit of `STAT1`; otherwise it has no side effect. It returns the environment's answer. -/
def Obligations.SecondaryStatusRead : Prop :=
  ∀ s : State, ∃ x : Word,
    bitsSet (if s.per.addrRead then [(1, false)] else []) s.per.stat1 x ∧
    exec .pRdStat2 s =
      .next (afterReadOf { s.per with stat2 := s.env.answer, stat1 := x, addrRead := false } 0x1800000000
        s.env.answer s)

/-- The data read (20_memory.md R78; 10_state.md R43): it returns the environment's answer and empties the register, so
`RXNE` is 0 after it and no other bit of `STAT1` changes; the acknowledge decision falls on `CTRL1.ACK` (log 26). That
the emptied `DATA` holds the value just read is the model's choice (log 32). -/
def Obligations.DataRead : Prop :=
  ∀ s : State, ∃ x : Word,
    bitsSet [(6, false)] s.per.stat1 x ∧
    exec .pRdData s =
      .next (afterReadOf { s.per with data := s.env.answer, stat1 := x, ackDecision := hasBit s.per.ctrl1 10 }
        0x1000000000 s.env.answer s)

/-- The control read (10_state.md R41; 20_memory.md R70, R80; log 3): `PE` and `ACK` read as the block last set them, `START`
and `STOP` are only cleared by the environment, and every other bit is the environment's. -/
def Obligations.ControlRead : Prop :=
  ∀ s : State, ∃ v : Word,
    hasBit v 0 = hasBit s.per.ctrl1 0 ∧
    hasBit v 10 = hasBit s.per.ctrl1 10 ∧
    hasBit v 8 = (hasBit s.per.ctrl1 8 && hasBit s.env.answer 8) ∧
    hasBit v 9 = (hasBit s.per.ctrl1 9 && hasBit s.env.answer 9) ∧
    (∀ k, k ∉ [0, 8, 9, 10] → hasBit v k = hasBit s.env.answer k) ∧
    exec .pRdCtrl1 s = .next (afterReadOf { s.per with ctrl1 := v } 0x0000000000 v s)

/-- Every micro-operation completes in every state, its record in the trace is its encoding (30_encoding.md R101, R102),
and it changes no element of the block but the value read, no byte of the host's buffers, and no
timings. -/
def Obligations.MicroOpFrame : Prop :=
  ∀ (i : Instr) (s : State), i.isPort = true →
    ∃ t rec v, exec i s = .next t ∧ encode i = .record rec ∧ t.trace = .port rec v :: s.trace ∧
      (∀ k, t.host.txbuf.read k = s.host.txbuf.read k) ∧ (∀ k, t.host.rxbuf.read k = s.host.rxbuf.read k) ∧
      t = { s with per := t.per, env := t.env, rdata := t.rdata, trace := t.trace }

/-! ## Acceptance of commands -/

/-- `WRITE`, `READ` and `WRRD` are accepted when `FSM` is `IDLE` and `CONSTRUCTED` is 1 (41_bus_sequencer.md R140,
R147, R148): the operands are latched, `IDX` is 0, and the START request comes next; nothing else changes, no access has
been made. That `stage` and the lengths a command does not have are set to what they are is the model's (log 5,
log 11). -/
def Obligations.TransfersAccepted : Prop :=
  ∀ s : State, s.fsm = .idle → s.constructed = true →
    (∀ a w, exec (.write a w) s =
      .next { s with
        op := .write, addr7 := a, wlen := w, rlen := 0, phase := .wr, idx := 0, fsm := .start, stage := .request }) ∧
    (∀ a n, 0 < n → exec (.read a n) s =
      .next { s with
        op := .read, addr7 := a, wlen := 0, rlen := n, phase := .rd, idx := 0, fsm := .start, stage := .request }) ∧
    (∀ a w n, exec (.wrrd a w n) s =
      .next { s with
        op := .wrrd, addr7 := a, wlen := w, rlen := n, phase := .wr, idx := 0, fsm := .start, stage := .request })

/-- `INIT` and `RECONF` are accepted where no refusal of 60_exceptions.md R225 applies: the operands are latched and the
first step comes next (43_configuration.md R196, R199); nothing else changes. -/
def Obligations.ConfigurationAccepted : Prop :=
  ∀ (s : State) (f : Nat), s.fsm = .idle → f ≤ 1431655765 →
    (∀ t, tcalc s.pclkHz f = .ok t → t.ccr ≤ 4095) →
    (s.constructed = false → ∀ scl sda, exec (.init f scl sda) s =
      .next { s with op := .init, freq := f, pull := { sdaPullup := sda, sclPullup := scl }, fsm := .cfg .c1 }) ∧
    (s.constructed = true → exec (.reconf f) s = .next { s with op := .reconf, freq := f, fsm := .cfg .g1 })

/-- `XITER` and `XACT`, accepted like every command in `IDLE`, are `Fatal(Unimplemented)`: no port access, no strobe, no
change to `TIMINGS`, whatever `CONSTRUCTED` is (43_configuration.md R206, R207). That they are accepted in `IDLE` only is
the reading of 60_exceptions.md R225 that log 16 names. -/
def Obligations.AbortingOpcodes : Prop :=
  ∀ s : State, s.fsm = .idle →
    exec .xiter s = .next { s with fsm := .halt .unimplemented } ∧
    exec .xact s = .next { s with fsm := .halt .unimplemented }

/-- The refusals (60_exceptions.md R225), each under its condition: `NotConstructed`, `AlreadyConstructed`, `Busy`,
`CcrRange`, `WideTarget`, `ConcurrentAccess`, `PayloadChanged`, the last for a look at `RXBUF` as well
(93_implementation_defined.md U20). That `XITER` and `XACT` are `Busy` while a command runs is log 16, the order of the
refusals log 17, the inputs that stand for outside agents log 15. -/
def Obligations.Refusals : Prop :=
  (∀ (s : State) (a : BitVec 7) (w n f : Nat), s.fsm = .idle → s.constructed = false →
    exec (.write a w) s = .refused .notConstructed ∧ exec (.read a n) s = .refused .notConstructed ∧
    exec (.wrrd a w n) s = .refused .notConstructed ∧ exec (.reconf f) s = .refused .notConstructed) ∧
  (∀ (s : State) (f : Nat) (scl sda : Bool), s.fsm = .idle → s.constructed = true →
    exec (.init f scl sda) s = .refused .alreadyConstructed) ∧
  (∀ (s : State) (a : BitVec 7) (w n f : Nat) (scl sda : Bool), s.fsm ≠ .idle →
    exec (.init f scl sda) s = .refused .busy ∧ exec (.write a w) s = .refused .busy ∧
    exec (.read a n) s = .refused .busy ∧ exec (.wrrd a w n) s = .refused .busy ∧
    exec (.reconf f) s = .refused .busy ∧ exec .xiter s = .refused .busy ∧ exec .xact s = .refused .busy) ∧
  (∀ (s : State) (f : Nat) (t : Timings) (scl sda : Bool), s.fsm = .idle → tcalc s.pclkHz f = .ok t →
    4095 < t.ccr →
    (s.constructed = false → exec (.init f scl sda) s = .refused .ccrRange) ∧
    (s.constructed = true → exec (.reconf f) s = .refused .ccrRange)) ∧
  (∀ (s : State) (f : Nat) (scl sda : Bool), s.fsm = .idle → 1431655765 < f →
    (s.constructed = false → exec (.init f scl sda) s = .refused .wideTarget) ∧
    (s.constructed = true → exec (.reconf f) s = .refused .wideTarget)) ∧
  (∀ (s : State) (r : Reg) (v : Word) (xs : List Input), s.constructed = true →
    s.host.inputs = .foreign r v :: xs → step s = .refused .concurrentAccess) ∧
  (∀ (s : State) (c : HostCmd), s.fsm ≠ .idle → (∀ i, decodeDescriptor c.desc ≠ .ok i) → offer c s = .refused .busy) ∧
  (∀ (s : State) (i : Nat) (b : Byte) (xs : List Input), s.fsm ≠ .idle → (∀ r, s.fsm ≠ .halt r) →
    s.host.inputs = .hostWrite i b :: xs → step s = .refused .payloadChanged) ∧
  (∀ (s : State) (xs : List Input), s.fsm ≠ .idle → (∀ r, s.fsm ≠ .halt r) →
    s.host.inputs = .hostRead :: xs → step s = .refused .payloadChanged)

/-! ## Steps -/

/-- A step that a command is offered to runs the command the descriptor decodes to, after the block has received it; so
does the step of an idle block whose host has a command waiting, and the step after the host places a descriptor with
`withFetchWord` (00_scope.md R5; 30_encoding.md R95; log 13). Receiving a command, an idle block is lent the host's buffers,
`TXBUF` with `WRITE`, `RXBUF` with `READ`, both with `WRRD`, neither with another command, and nothing else changes
(10_state.md R20, R30; log 22) but that a new trace begins (log 20); a block that is not idle takes nothing. A step that is
offered a descriptor no row matches, in any of the three ways, halts an idle block with `IllegalCommand` and no access
(30_encoding.md R103, R104), and is `Busy` elsewhere (60_exceptions.md R225; log 16). -/
def Obligations.StepRunsOfferedCommand : Prop :=
  (∀ (s : State) (c : HostCmd) (i : Instr), decodeDescriptor c.desc = .ok i →
    (∀ xs, s.host.inputs = .offer c :: xs → step s = exec i (receive i c (withInputs xs s))) ∧
    (∀ cs, s.host.inputs = [] → s.fsm = .idle → s.host.program = c :: cs →
      step s = exec i (receive i c { s with host := { s.host with program := cs } })) ∧
    step (s.withFetchWord 64 c.desc.toNat) =
      exec i (receive i { desc := c.desc, tx := s.host.txbuf, rx := s.host.rxbuf } s)) ∧
  (∀ (s : State) (c : HostCmd) (i : Instr),
    (s.fsm = .idle → ∃ tx rx,
      receive i c s = { s with trace := [], host := { s.host with txbuf := tx, rxbuf := rx } } ∧
      tx = (match i with
        | .write _ _ => c.tx
        | .wrrd _ _ _ => c.tx
        | _ => s.host.txbuf) ∧
      rx = (match i with
        | .read _ _ => c.rx
        | .wrrd _ _ _ => c.rx
        | _ => s.host.rxbuf)) ∧
    (s.fsm ≠ .idle → receive i c s = s)) ∧
  (∀ (s : State) (c : HostCmd), (∀ i, decodeDescriptor c.desc ≠ .ok i) →
    (∀ xs, s.host.inputs = .offer c :: xs →
      (s.fsm = .idle → step s = .next { withInputs xs s with fsm := .halt .illegalCommand, trace := [] }) ∧
      (s.fsm ≠ .idle → step s = .refused .busy)) ∧
    (∀ cs, s.host.inputs = [] → s.fsm = .idle → s.host.program = c :: cs →
      step s = .next { s with
        fsm := .halt .illegalCommand, trace := [], host := { s.host with program := cs } }) ∧
    (s.fsm = .idle → step (s.withFetchWord 64 c.desc.toNat) =
      .next { s with fsm := .halt .illegalCommand, trace := [] }) ∧
    (s.fsm ≠ .idle → step (s.withFetchWord 64 c.desc.toNat) = .refused .busy))

/-- A step of a running command runs its next access, a micro-operation, and then takes what follows from it; and the
step after the host places a record with `withFetchWord` runs that micro-operation (92_eei_decisions.md D2;
41_bus_sequencer.md R153; log 10, log 19). -/
def Obligations.StepRunsNextAccess : Prop :=
  (∀ (s t : State) (i : Instr), s.host.inputs = [] → s.running = true → hasRow s = true → access s = some i →
    exec i s = .next t → i.isPort = true ∧ step s = .next (advance t)) ∧
  (∀ (s : State) (i : Instr) (r : Record), encode i = .record r → s.host.txbuf.wf = true →
    ∃ t, access (atAccess i s) = some i ∧ exec i (atAccess i s) = .next t ∧
      step (s.withFetchWord 40 r.toNat) = .next (advance t))

/-- What an input from outside that is no command changes. A reset, at any time and in any state: `FSM` is `IDLE`,
`CONSTRUCTED` is 0, `TIMINGS`, `CONFIG` and `RESULT` have no value, the other elements of the block are those of
`State.reset`; no port access, no strobe; the host's buffers are not touched, and the peripheral is in any state
(70_reset_and_hazards.md R245, R248; log 5, log 14). A step of the environment, at any time and in any state: one
register takes the values the environment drives, except the bits the block owns, `START` and `STOP`, which are only
cleared, and the flags that stay until they are cleared (00_scope.md R5; 10_state.md R41, R42; 20_memory.md R71; log 31).
A foreign access before construction, and the host at its buffers while no command runs (log 15). -/
def Obligations.ResetInput : Prop :=
  (∀ (s : State) (p : Periph) (xs : List Input), s.host.inputs = .reset p :: xs →
    ∃ t, step s = .next t ∧ t.fsm = .idle ∧ t.constructed = false ∧ t.timings = none ∧ t.config = none ∧
      t.result = none ∧
      t = { State.reset with
        per := p, env := s.env, pclkHz := s.pclkHz, host := { s.host with inputs := xs } }) ∧
  (∀ (s : State) (r : Reg) (v : Word) (xs : List Input), s.host.inputs = .environment r v :: xs →
    ∃ w, step s = .next { s with per := s.per.set r w, host := { s.host with inputs := xs } } ∧
      ∀ k, hasBit w k =
        match r with
        | .ctrl1 =>
          if k = 0 ∨ k = 10 then hasBit s.per.ctrl1 k
          else if k = 8 ∨ k = 9 then hasBit s.per.ctrl1 k && hasBit v k
          else hasBit v k
        | .ctrl2 => if k < 6 then hasBit s.per.ctrl2 k else hasBit v k
        | .data => hasBit v k
        | .stat1 => hasBit v k || (decide (k ∈ [1, 8, 9, 10, 11, 12, 14]) && hasBit s.per.stat1 k)
        | .stat2 => hasBit v k
        | .ccr => if k < 12 ∨ k = 14 ∨ k = 15 then hasBit s.per.ccr k else hasBit v k
        | .trise => if k < 6 then hasBit s.per.trise k else hasBit v k) ∧
  (∀ (s : State) (r : Reg) (v : Word) (xs : List Input), s.constructed = false →
    s.host.inputs = .foreign r v :: xs →
    step s = .next { s with per := s.per.set r v, host := { s.host with inputs := xs } }) ∧
  (∀ (s : State) (i : Nat) (b : Byte) (xs : List Input), s.running = false → s.host.txbuf.wf = true →
    s.host.inputs = .hostWrite i b :: xs →
    ∃ m, step s = .next { s with host := { s.host with inputs := xs, txbuf := m } } ∧ m.wf = true ∧
      m.read i = b ∧ ∀ k, k ≠ i → m.read k = s.host.txbuf.read k) ∧
  (∀ (s : State) (xs : List Input), s.running = false → s.host.inputs = .hostRead :: xs →
    step s = .next { s with host := { s.host with inputs := xs } })

/-! ## The rows of the step table -/

/-- The START request (41_bus_sequencer.md R143): the write phase sets `START` and leaves `ACK`, the read phase sets
both; then `SB` is polled. -/
def Obligations.StartRequest : Prop :=
  ∀ s : State, standsAt .start .request s →
    ∃ v rec, step s = .next { s with
        stage := .monitor, per := { s.per with ctrl1 := v }, trace := .port rec none :: s.trace } ∧
      bitsSet (if s.phase = .wr then [(8, true)] else [(8, true), (10, true)]) s.per.ctrl1 v ∧
      encode (if s.phase = .wr then .pSetStart else .pSetStartAck) = .record rec

/-- The five flag polls where the monitor reports nothing and `BERR` is 0 (41_bus_sequencer.md R142 `PollFlag`, R153):
one status read, its value stored as the snapshot; with the awaited flag 0 the poll is repeated, with it 1 the next state
is that of the step table (log 30). -/
def Obligations.FlagPolls : Prop :=
  ∀ (s : State) (v : Word), s.host.inputs = [] → s.stage = .monitor → v = s.readValue .stat1 → calm v = true →
    hasBit v 8 = false →
    ∀ t : State,
      t = { afterReadOf { s.per with stat1 := v, addrRead := hasBit v 1 } 0x1400000000 v s with snap := v } →
      (s.fsm = .start →
        step s = .next { t with fsm := if hasBit v 0 then .master else .start }) ∧
      (s.fsm = .addr →
        step s = .next (if hasBit v 1 then { t with fsm := .addrclr, stage := .leave } else t)) ∧
      (s.fsm = .txe → step s = .next (if hasBit v 7 then { t with stage := .leave } else t)) ∧
      (s.fsm = .rxne → s.idx < s.rlen →
        step s = .next (if hasBit v 6 then { t with stage := .leave } else t)) ∧
      (s.fsm = .btf → s.idx + 1 < s.wlen →
        step s = .next (if hasBit v 2 then { t with fsm := .txe, idx := s.idx + 1 } else t)) ∧
      (s.fsm = .btf → s.idx + 1 = s.wlen → s.op = .write →
        step s = .next (if hasBit v 2 then { t with stage := .leave } else t)) ∧
      (s.fsm = .btf → s.idx + 1 = s.wlen → s.op = .wrrd → 0 < s.rlen →
        step s = .next (if hasBit v 2 then { t with phase := .rd, idx := 0, fsm := .start, stage := .request } else t)) ∧
      (s.fsm = .btf → s.idx + 1 = s.wlen → s.op = .wrrd → s.rlen = 0 →
        step s = .next (if hasBit v 2 then { t with result := some .overrun, fsm := .idle } else t))

/-- The master poll and the STOP poll (41_bus_sequencer.md R142 `PollMaster`, `PollStop`, R153). The monitor call, where it
reports nothing: one status read, its value discarded (`SNAP` keeps its value, log 30), with `BERR` seen one more step that
clears it and no other bit of `STAT1`; then the second read comes next. After it, `MSL` and `BUSY` both 1 in `STAT2` let
the address byte go out, `STOP` = 0 in `CTRL1` completes the command with `Ok`; otherwise the poll is repeated. One step an
access is the model's count (log 10). -/
def Obligations.MasterAndStopPolls : Prop :=
  (∀ (s : State) (v : Word), s.host.inputs = [] → s.stage = .monitor → s.fsm = .master ∨ s.fsm = .stop →
    v = s.readValue .stat1 → calm v = true →
    ∀ t : State, t = afterReadOf { s.per with stat1 := v, addrRead := hasBit v 1 } 0x1400000000 v s →
      (hasBit v 8 = false → step s = .next { t with stage := .second }) ∧
      (hasBit v 8 = true → ∃ x, bitsSet [(8, false)] v x ∧
        run 2 s = .next { t with
          stage := .second, per := { t.per with stat1 := x }, trace := .port 0xD401000000 none :: t.trace })) ∧
  ∀ s : State,
    (standsAt .master .second s → ∃ u, exec .pRdStat2 s = .next u ∧
      step s = .next { u with stage := if hasBit s.env.answer 0 && hasBit s.env.answer 1 then .leave else .monitor }) ∧
    (standsAt .stop .second s → ∃ u, exec .pRdCtrl1 s = .next u ∧
      step s = .next (if hasBit u.rdata 9 then { u with stage := .monitor }
        else { u with result := some .ok, fsm := .idle }))

/-- The address byte (10_state.md R50; 41_bus_sequencer.md R144): when the master poll is left, `DATA` takes the device
address in bits 7:1 and the direction of the phase in bit 0; then `ADDR` is polled. -/
def Obligations.AddressByteSent : Prop :=
  ∀ s : State, standsAt .master .leave s →
    ∃ v rec, step s = .next { s with
        fsm := .addr, stage := .monitor, per := { s.per with data := v }, trace := .port rec none :: s.trace } ∧
      v.toNat = 2 * s.addr7.toNat + (if s.phase = .wr then 0 else 1) ∧ rec = packP 1 0x10 0xFFFF v

/-- The latch-clearing read (41_bus_sequencer.md R144, R153 row `S_ADDRCLR`; 20_memory.md R76): `STAT2` is read once, the
latch is cleared if `ADDR` was read, the value is discarded, and the next place is that of the step table. -/
def Obligations.LatchClearRow : Prop :=
  ∀ s : State, standsAt .addrclr .leave s →
    ∃ u, exec .pRdStat2 s = .next u ∧
      (s.phase = .wr → 0 < s.wlen → step s = .next { u with idx := 0, fsm := .txe, stage := .monitor }) ∧
      (s.phase = .wr → s.wlen = 0 → s.op = .write → step s = .next { u with stage := .leaveCtrl }) ∧
      (s.phase = .wr → s.wlen = 0 → s.op = .wrrd → 0 < s.rlen →
        step s = .next { u with phase := .rd, idx := 0, fsm := .start, stage := .request }) ∧
      (s.phase = .wr → s.wlen = 0 → s.op = .wrrd → s.rlen = 0 →
        step s = .next { u with result := some .overrun, fsm := .idle }) ∧
      (s.phase = .rd → 2 ≤ s.rlen → step s = .next { u with idx := 0, fsm := .rxne, stage := .monitor }) ∧
      (s.phase = .rd → s.rlen = 1 → step s = .next { u with stage := .leaveCtrl })

/-- A payload byte (41_bus_sequencer.md R145; 20_memory.md R84): the byte `TXBUF[IDX]`, fetched at this step, is written
to `DATA`; then `BTF` is polled. -/
def Obligations.PayloadByteSent : Prop :=
  ∀ s : State, standsAt .txe .leave s →
    ∃ v, step s = .next { s with
        fsm := .btf, stage := .monitor, per := { s.per with data := v },
        trace := .port (packP 1 0x10 0xFFFF v) none :: s.trace } ∧
      v.toNat = (s.host.txbuf.read s.idx).toNat

/-- The requests of STOP (41_bus_sequencer.md R150 `s1`, R148 `r9`, R153): `WRITE` sets `STOP` after its payload, or
after the latch clear where there is none; the read phase clears `ACK` and sets `STOP` before the last byte is awaited,
for one byte directly after the latch clear. -/
def Obligations.StopRequests : Prop :=
  ∀ s : State, ∃ set nack : Word,
    bitsSet [(9, true)] s.per.ctrl1 set ∧ bitsSet [(10, false), (9, true)] s.per.ctrl1 nack ∧
    (standsAt .btf .leave s → s.idx + 1 = s.wlen → s.op = .write →
      step s = .next { s with
        fsm := .stop, stage := .monitor, per := { s.per with ctrl1 := set },
        trace := .port 0x8002000200 none :: s.trace }) ∧
    (standsAt .addrclr .leaveCtrl s → s.phase = .wr →
      step s = .next { s with
        fsm := .stop, stage := .monitor, per := { s.per with ctrl1 := set },
        trace := .port 0x8002000200 none :: s.trace }) ∧
    (standsAt .addrclr .leaveCtrl s → s.phase = .rd →
      step s = .next { s with
        fsm := .rxne, stage := .monitor, idx := 0, per := { s.per with ctrl1 := nack },
        trace := .port 0x8006000200 none :: s.trace }) ∧
    (standsAt .rxne .leaveCtrl s → s.idx < s.rlen →
      step s = .next { s with
        fsm := .rxne, stage := .monitor, idx := s.idx + 1, per := { s.per with ctrl1 := nack },
        trace := .port 0x8006000200 none :: s.trace })

/-- The drain of a received byte (41_bus_sequencer.md R146, R153 row `S_RXNE(i)`; 20_memory.md R66, R78, R84): `DATA` is
read once, bits 7:0 are stored at `RXBUF[IDX]` and no other byte of a buffer changes, and the next place is that of the
step table. -/
def Obligations.DrainRow : Prop :=
  ∀ s : State, standsAt .rxne .leave s → s.idx < s.rlen → s.host.rxbuf.wf = true →
    ∃ u m, exec .pRdData s = .next u ∧ m.read s.idx = dataByte s.env.answer ∧
      (∀ k, k ≠ s.idx → m.read k = s.host.rxbuf.read k) ∧ m.wf = true ∧
      ∀ t : State, t = { u with host := { s.host with rxbuf := m } } →
        (s.idx + 1 = s.rlen → step s = .next { t with fsm := .stop, stage := .monitor }) ∧
        (s.idx + 2 = s.rlen → step s = .next { t with stage := .leaveCtrl }) ∧
        (s.idx + 2 < s.rlen → step s = .next { t with idx := s.idx + 1, fsm := .rxne, stage := .monitor })

/-! ## The monitor -/

/-- A monitor call that finds an error flag (42_error_flag_monitor.md R181, R183, R184, R185; 41_bus_sequencer.md R154;
60_exceptions.md R218 to R222, R228, R229). In every polling state and for every status word `v`: the first flag set in
the order `TIMEOUT`, `PECERR`, `OVR`, `AF`, `ARLO` is cleared, then `BERR` if it was set, and the command ends with that
flag's error: `RESULT` and `IDLE`, and nothing else is recorded, not in `SNAP` either (log 30); every other bit of `STAT1`
stays as it was read. The steps are one an access (log 10). -/
def Obligations.MonitorReportsFirstError : Prop :=
  ∀ (s : State) (v : Word) (f : ErrFlag), s.host.inputs = [] → pollRow s = true → s.stage = .monitor →
    v = s.readValue .stat1 →
    (match f with
      | .timeout => hasBit v 14 = true
      | .pecerr => hasBit v 14 = false ∧ hasBit v 12 = true
      | .ovr => hasBit v 14 = false ∧ hasBit v 12 = false ∧ hasBit v 11 = true
      | .af => hasBit v 14 = false ∧ hasBit v 12 = false ∧ hasBit v 11 = false ∧ hasBit v 10 = true
      | .arlo => hasBit v 14 = false ∧ hasBit v 12 = false ∧ hasBit v 11 = false ∧ hasBit v 10 = false ∧
          hasBit v 9 = true) →
    ∃ t x rec, run (if hasBit v 8 then 3 else 2) s = .next t ∧
      t.fsm = .idle ∧
      t.result = some (match f with
        | .timeout => .timeout
        | .pecerr => .crc
        | .ovr => .overrun
        | .af => .nack
        | .arlo => .arbitration) ∧
      encode (match f with
        | .timeout => .pClrTimeout
        | .pecerr => .pClrPecerr
        | .ovr => .pClrOvr
        | .af => .pClrAf
        | .arlo => .pClrArlo) = .record rec ∧
      t.trace = (if hasBit v 8 then [.port 0xD401000000 none] else []) ++
        [.port rec none, .port 0x1400000000 (some v)] ++ s.trace ∧
      bitsSet ((errBit f, false) :: if hasBit v 8 then [(8, false)] else []) v x ∧
      t = { s with
        fsm := t.fsm, stage := t.stage, result := t.result, trace := t.trace, rdata := v,
        env := s.env.advance, per := { s.per with stat1 := x, addrRead := hasBit v 1 } }

/-- A monitor call that finds `BERR` and no error flag (42_error_flag_monitor.md R185, R188): `BERR` is cleared, and the
poll goes on as if `BERR` had been 0 (`afterMonitor`, whose cases are those of `FlagPolls` for the five flag polls and of
`MasterAndStopPolls` for the other two). -/
def Obligations.MonitorSwallowsBusError : Prop :=
  ∀ (s : State) (v : Word), s.host.inputs = [] → pollRow s = true → s.stage = .monitor →
    v = s.readValue .stat1 → calm v = true →
    ∃ u x, exec .pRdStat1 s = .next u ∧ u.rdata = v ∧ bitsSet [(8, false)] v x ∧
      (hasBit v 8 = false → step s = .next (afterMonitor u)) ∧
      (hasBit v 8 = true → ∃ g, run 2 s = .next (afterMonitor { u with
        stage := g, per := { u.per with stat1 := x }, trace := .port 0xD401000000 none :: u.trace }))

/-! ## Whole commands -/

/-- `INIT` to its end (43_configuration.md R197; 70_reset_and_hazards.md R249, R268): four strobes and five updates in
their order, the three clock registers written while `PE` is 0, and at the end `PE`, the clock fields, `CONFIG`,
`TIMINGS`, `CONSTRUCTED` and `RESULT` as the rule says; every bit of a register it does not write is as `ExtReset` left
it. The ten steps are the model's count (log 10), the values after `ExtReset` free (log 9). -/
def Obligations.InitRun : Prop :=
  ∀ (s : State) (f : Nat) (scl sda : Bool) (t : Timings), s.fsm = .idle → s.constructed = false →
    s.host.inputs = [] → f ≤ 1431655765 → tcalc s.pclkHz f = .ok t → t.ccr ≤ 4095 →
    ∃ u v fr cc ti, exec (.init f scl sda) s = .next u ∧ run 10 u = .next v ∧
      v.fsm = .idle ∧ v.result = some .ok ∧ v.timings = some t ∧
      v.config = some { sdaPullup := sda, sclPullup := scl } ∧ v.constructed = true ∧
      encode (.pWrFreq (BitVec.ofNat 6 t.divisor)) = .record fr ∧
      encode (.pWrCcr (decide (t.mode = .fast)) false (BitVec.ofNat 12 t.ccr)) = .record cc ∧
      encode (.pWrTrise (BitVec.ofNat 6 t.trise)) = .record ti ∧
      v.trace = [.port 0x8000010001 none, .port ti none, .port cc none, .port fr none, .port 0x8000010000 none,
        .strobe (.extPinSda sda), .strobe (.extPinScl scl), .strobe .extReset, .strobe .extClockEnable] ++ s.trace ∧
      hasBit v.per.ctrl1 0 = true ∧ v.per.ctrl2.toNat % 64 = t.divisor ∧ v.per.ccr.toNat % 4096 = t.ccr ∧
      hasBit v.per.ccr 14 = false ∧ hasBit v.per.ccr 15 = decide (t.mode = .fast) ∧
      v.per.trise.toNat % 64 = t.trise ∧
      (∀ k, k ≠ 0 → hasBit v.per.ctrl1 k = hasBit (Periph.afterExtReset s.env).ctrl1 k) ∧
      (∀ k, 6 ≤ k → hasBit v.per.ctrl2 k = hasBit (Periph.afterExtReset s.env).ctrl2 k) ∧
      hasBit v.per.ccr 12 = hasBit (Periph.afterExtReset s.env).ccr 12 ∧
      hasBit v.per.ccr 13 = hasBit (Periph.afterExtReset s.env).ccr 13 ∧
      (∀ k, 6 ≤ k → hasBit v.per.trise k = hasBit (Periph.afterExtReset s.env).trise k) ∧
      v.per.stat1 = (Periph.afterExtReset s.env).stat1 ∧ v.per.stat2 = (Periph.afterExtReset s.env).stat2 ∧
      v.per.data = (Periph.afterExtReset s.env).data ∧
      v.host = s.host ∧ v.pclkHz = s.pclkHz

/-- The fatal ends of the configuration commands (43_configuration.md R198, R199; 60_exceptions.md R224): `INIT` halts
at `c6`, after four strobes and `PE <- 0`; `RECONF` halts at `g1`, before any access. `RESULT`, `TIMINGS`, `CONFIG` and
`CONSTRUCTED` keep their values. -/
def Obligations.ConfigurationFatal : Prop :=
  ∀ (s : State) (f : Nat) (r : FatalReason), s.fsm = .idle → s.host.inputs = [] → f ≤ 1431655765 →
    tcalc s.pclkHz f = .error r →
    (s.constructed = false → ∀ scl sda, ∃ u v, exec (.init f scl sda) s = .next u ∧ run 6 u = .next v ∧
      v.fsm = .halt r ∧ hasBit v.per.ctrl1 0 = false ∧
      v.trace = [.port 0x8000010000 none, .strobe (.extPinSda sda), .strobe (.extPinScl scl), .strobe .extReset,
        .strobe .extClockEnable] ++ s.trace ∧
      v.result = s.result ∧ v.timings = s.timings ∧ v.config = s.config ∧ v.constructed = false ∧ v.host = s.host) ∧
    (s.constructed = true → ∃ u v, exec (.reconf f) s = .next u ∧ run 1 u = .next v ∧
      v = { s with op := .reconf, freq := f, fsm := .halt r })

/-- `RECONF` to its end (43_configuration.md R199, R200, R203, R205): exactly three updates, the fields of the new
timings in the three clock registers, every other bit of them, `CTRL1` and the rest of the peripheral unchanged, and
`TIMINGS` replaced as a whole. The four steps are the model's count (log 10). -/
def Obligations.ReconfRun : Prop :=
  ∀ (s : State) (f : Nat) (t : Timings), s.fsm = .idle → s.constructed = true → s.host.inputs = [] →
    f ≤ 1431655765 → tcalc s.pclkHz f = .ok t → t.ccr ≤ 4095 →
    ∃ u v fr cc ti x y z, exec (.reconf f) s = .next u ∧ run 4 u = .next v ∧
      encode (.pWrFreq (BitVec.ofNat 6 t.divisor)) = .record fr ∧
      encode (.pWrCcr (decide (t.mode = .fast)) false (BitVec.ofNat 12 t.ccr)) = .record cc ∧
      encode (.pWrTrise (BitVec.ofNat 6 t.trise)) = .record ti ∧
      x.toNat % 64 = t.divisor ∧ (∀ k, 6 ≤ k → hasBit x k = hasBit s.per.ctrl2 k) ∧
      y.toNat % 4096 = t.ccr ∧ hasBit y 14 = false ∧ hasBit y 15 = decide (t.mode = .fast) ∧
      hasBit y 12 = hasBit s.per.ccr 12 ∧ hasBit y 13 = hasBit s.per.ccr 13 ∧
      z.toNat % 64 = t.trise ∧ (∀ k, 6 ≤ k → hasBit z k = hasBit s.per.trise k) ∧
      v = { s with
        op := .reconf, freq := f, plan := t, result := some .ok, timings := some t,
        per := { s.per with ctrl2 := x, ccr := y, trise := z },
        trace := .port ti none :: .port cc none :: .port fr none :: s.trace }

/-- A fault-free `WRITE` (41_bus_sequencer.md R147, R150, R156 item 5): where every poll succeeds at its first iteration
and `BERR` is never seen it makes `10 + 3·WLEN` port accesses, writes the address byte and then the payload in order to
`DATA`, requests STOP once, ends with `Ok`, and leaves `PE`, `ACK`, the clock registers, the buffers and the handle as
they were. -/
def Obligations.FaultFreeWrite : Prop :=
  ∀ (s : State) (a : BitVec 7) (w : Nat), s.fsm = .idle → s.constructed = true → s.host.inputs = [] →
    cleanStatus s = true → metBy (wantsWrite w) s.env.answers = true →
    ∃ t u new, exec (.write a w) s = .next t ∧ run (10 + 3 * w) t = .next u ∧
      u.fsm = .idle ∧ u.result = some .ok ∧ u.trace = new ++ s.trace ∧ new.length = 10 + 3 * w ∧
      allPort new = true ∧ bytesIn new = addrByte a false :: payload s.host.txbuf 0 w ∧
      accessesIn isDataRead new = 0 ∧ accessesIn isStopRequest new = 1 ∧
      hasBit u.per.ctrl1 0 = hasBit s.per.ctrl1 0 ∧ hasBit u.per.ctrl1 10 = hasBit s.per.ctrl1 10 ∧
      hasBit u.per.ctrl1 9 = false ∧ u.per.ctrl2 = s.per.ctrl2 ∧ u.per.ccr = s.per.ccr ∧
      u.per.trise = s.per.trise ∧ u.host = s.host ∧ u.timings = s.timings ∧ u.config = s.config ∧
      u.constructed = true ∧ u.pclkHz = s.pclkHz

/-- A fault-free `READ` of at least one byte (41_bus_sequencer.md R148, R151, R156 items 5 to 7): `10 + 2·RLEN` port
accesses, one write to `DATA` (the address byte with direction 1), the bytes received in order into `RXBUF` and no other
byte of a buffer changed, STOP requested once, `ACK` left 0, and `Ok`. -/
def Obligations.FaultFreeRead : Prop :=
  ∀ (s : State) (a : BitVec 7) (bs : List Byte), s.fsm = .idle → s.constructed = true → s.host.inputs = [] →
    bs ≠ [] → s.host.rxbuf.wf = true → cleanStatus s = true → metBy (wantsRead bs) s.env.answers = true →
    ∃ t u new, exec (.read a bs.length) s = .next t ∧ run (10 + 2 * bs.length) t = .next u ∧
      u.fsm = .idle ∧ u.result = some .ok ∧ u.trace = new ++ s.trace ∧ new.length = 10 + 2 * bs.length ∧
      allPort new = true ∧ bytesIn new = [addrByte a true] ∧ accessesIn isDataRead new = bs.length ∧
      accessesIn isStopRequest new = 1 ∧ payload u.host.rxbuf 0 bs.length = bs ∧
      (∀ k, bs.length ≤ k → u.host.rxbuf.read k = s.host.rxbuf.read k) ∧ u.host.txbuf = s.host.txbuf ∧
      hasBit u.per.ctrl1 0 = hasBit s.per.ctrl1 0 ∧ hasBit u.per.ctrl1 10 = false ∧ hasBit u.per.ctrl1 9 = false ∧
      u.per.ctrl2 = s.per.ctrl2 ∧ u.per.ccr = s.per.ccr ∧ u.per.trise = s.per.trise ∧ u.timings = s.timings ∧
      u.config = s.config ∧ u.constructed = true

/-- A fault-free `WRRD` that receives at least one byte (41_bus_sequencer.md R152, R156 items 1 and 5 to 7):
`17 + 3·WLEN + 2·RLEN` port accesses. They are those of the write phase (`first`), which begins with the START request,
sends the address byte with direction 0 and the payload and neither requests STOP nor reads `DATA`; the repeated START
(`P.SET_START_ACK`); and those after it (`second`), which send the address byte with direction 1 and no other byte and
request STOP once. The bytes received stand in `RXBUF`. -/
def Obligations.FaultFreeWrrd : Prop :=
  ∀ (s : State) (a : BitVec 7) (w : Nat) (bs : List Byte), s.fsm = .idle → s.constructed = true →
    s.host.inputs = [] → bs ≠ [] → s.host.rxbuf.wf = true → cleanStatus s = true →
    metBy (wantsWrrd w bs) s.env.answers = true →
    ∃ t u new, exec (.wrrd a w bs.length) s = .next t ∧ run (17 + 3 * w + 2 * bs.length) t = .next u ∧
      u.fsm = .idle ∧ u.result = some .ok ∧ u.trace = new ++ s.trace ∧
      new.length = 17 + 3 * w + 2 * bs.length ∧ allPort new = true ∧
      bytesIn new = addrByte a false :: (payload s.host.txbuf 0 w ++ [addrByte a true]) ∧
      accessesIn isDataRead new = bs.length ∧ accessesIn isStopRequest new = 1 ∧
      (∃ first second start restart,
        encode .pSetStart = .record start ∧ encode .pSetStartAck = .record restart ∧
        new = second ++ .port restart none :: first ∧ first.getLast? = some (.port start none) ∧
        bytesIn first = addrByte a false :: payload s.host.txbuf 0 w ∧ bytesIn second = [addrByte a true] ∧
        accessesIn isStopRequest first = 0 ∧ accessesIn isStopRequest second = 1 ∧
        accessesIn isDataRead first = 0 ∧ accessesIn isDataRead second = bs.length) ∧
      payload u.host.rxbuf 0 bs.length = bs ∧
      (∀ k, bs.length ≤ k → u.host.rxbuf.read k = s.host.rxbuf.read k) ∧ u.host.txbuf = s.host.txbuf ∧
      hasBit u.per.ctrl1 10 = false ∧ hasBit u.per.ctrl1 9 = false ∧ u.timings = s.timings ∧
      u.config = s.config ∧ u.constructed = true

/-- An empty read buffer (41_bus_sequencer.md R148 `r0`, R151, R152; 60_exceptions.md R222 (b)): `READ` with `RLEN` = 0
is `Overrun` at once, and not one port access is made; `WRRD` with `RLEN` = 0 runs its write phase in full and ends with
`Overrun`, no STOP requested and nothing read from `DATA`. -/
def Obligations.EmptyReadBuffer : Prop :=
  (∀ (s : State) (a : BitVec 7), s.fsm = .idle → s.constructed = true →
    ∃ t, exec (.read a 0) s = .next t ∧ t.result = some .overrun ∧ t.fsm = .idle ∧ t.trace = s.trace ∧
      t = { s with op := .read, addr7 := a, wlen := 0, rlen := 0, result := t.result, fsm := t.fsm }) ∧
  (∀ (s : State) (a : BitVec 7) (w : Nat), s.fsm = .idle → s.constructed = true → s.host.inputs = [] →
    cleanStatus s = true → metBy (wantsStart ++ wantsPayload w) s.env.answers = true →
    ∃ t u new, exec (.wrrd a w 0) s = .next t ∧ run (7 + 3 * w) t = .next u ∧
      u.fsm = .idle ∧ u.result = some .overrun ∧ u.trace = new ++ s.trace ∧ new.length = 7 + 3 * w ∧
      allPort new = true ∧ bytesIn new = addrByte a false :: payload s.host.txbuf 0 w ∧
      accessesIn isDataRead new = 0 ∧ accessesIn isStopRequest new = 0 ∧ u.host = s.host)

/-- The hang (60_exceptions.md R237): in each of the seven polling states a command can run for any number of steps
without leaving the state. -/
def Obligations.PollsCanHang : Prop :=
  ∀ (f : Fsm), f.polls = true → ∀ n : Nat,
    ∃ s : State, seqOk s = true ∧ s.constructed = true ∧ s.fsm = f ∧ s.host.inputs = [] ∧
      ∀ k, k ≤ n → ∃ t, run k s = .next t ∧ t.fsm = f

/-! ## Invariants -/

/-- The sequencer's place: `FSM`, the sub-step, `OP`, `PHASE` and `IDX` fit together (10_state.md R22 to R24;
41_bus_sequencer.md R153), and every step keeps that. -/
def Obligations.SequencerInvariant : Prop :=
  ∀ s t : State, seqOk s = true → step s = .next t → seqOk t = true

/-- Where the sequencer's place is in order no step faults: the step table has a row for every place
(20_memory.md R70: "Whether the block has a step never depends on the value returned"; log 12). -/
def Obligations.NoFault : Prop :=
  ∀ (s : State) (f : Fault), seqOk s = true → step s ≠ .fault f

/-- The counts of 41_bus_sequencer.md R156 items 5 to 7: at every place of a transfer command the writes to `DATA`, the
reads of `DATA` and the requests of STOP are as many as the place calls for, and so at its `Ok` end. Every step keeps
that. -/
def Obligations.CountsInvariant : Prop :=
  ∀ s t : State, seqOk s = true → countsOk s = true → step s = .next t → countsOk t = true

/-- Every access on leaving a state directly follows, in the trace, what lets it: a poll, or the access on leaving that
comes before it; and the START request of a command is its first access (41_bus_sequencer.md R153, R156 items 1 to 4,
item 4 of the read that leaves `S_ADDR`, log 33; 70_reset_and_hazards.md R253, R264; `exitOk`). Every step keeps that. -/
def Obligations.ExitInvariant : Prop :=
  ∀ s t : State, seqOk s = true → exitOk s = true → step s = .next t → exitOk t = true

/-- The timings invariant (10_state.md R49): while `CONSTRUCTED` is 1 `TIMINGS` and `CONFIG` have values and the timings
are in range. Every step keeps that, with the lifecycle it rests on. -/
def Obligations.TimingsInvariant : Prop :=
  ∀ s t : State, seqOk s = true → lifecycleOk s = true → timingsOk s = true → step s = .next t →
    lifecycleOk t = true ∧ timingsOk t = true

/-- The clock registers hold `TIMINGS` (43_configuration.md R197 "State after an `Ok` completion", R204), provided no
other agent touches them. Every step keeps that. -/
def Obligations.ClockInvariant : Prop :=
  ∀ s t : State, seqOk s = true → lifecycleOk s = true → timingsOk s = true → undisturbed s = true →
    clockOk s = true → step s = .next t → clockOk t = true ∧ undisturbed t = true

/-- The peripheral enable (60_exceptions.md R236): 1 while `CONSTRUCTED` is 1, and 0 from `c5` to `c10` of `INIT`,
provided no other agent touches the registers. Every step keeps that. -/
def Obligations.EnableInvariant : Prop :=
  ∀ s t : State, seqOk s = true → lifecycleOk s = true → undisturbed s = true → peOk s = true → peOffOk s = true →
    step s = .next t → peOk t = true ∧ peOffOk t = true

/-- The ordering of the final byte (41_bus_sequencer.md R149; 70_reset_and_hazards.md R254): in a read phase `ACK` is 1 and
`r9` was not made until the last byte is awaited; where it is awaited, before its `RXNE` poll and its drain, `ACK` is 0, `r9`
(`ACK <- 0`, `STOP <- 1`) was made once and no `DATA` read came after it; after the drain exactly one did. Every step keeps
that. -/
def Obligations.AcknowledgeInvariant : Prop :=
  ∀ s t : State, seqOk s = true → lifecycleOk s = true → ackOk s = true → step s = .next t → ackOk t = true

/-- The completion codes (30_encoding.md R100, R105; 60_exceptions.md R216, R217, R223): their numbers; no code above 7; the
result is never `Bus` (1) and never `ZeroLengthTransfer` (7), which every step keeps. -/
def Obligations.ResultInvariant : Prop :=
  (∀ r : Result, resultCode r = match r with
    | .ok => 0
    | .bus => 1
    | .arbitration => 2
    | .nack => 3
    | .timeout => 4
    | .crc => 5
    | .overrun => 6
    | .zeroLengthTransfer => 7) ∧
  (∀ n, (∃ r, resultCode r = n) ↔ n ≤ 7) ∧
  (∀ s t : State, resultOk s = true → step s = .next t → resultOk t = true) ∧
  ∀ s : State, resultOk s = true ↔ ∀ r, s.result = some r → resultCode r ≠ 1 ∧ resultCode r ≠ 7

/-- Every host buffer keeps the model's one form (log 18). -/
def Obligations.MemoryInvariant : Prop :=
  ∀ s t : State, memoryOk s = true → step s = .next t → memoryOk t = true

/-- After reset (10_state.md R47): `FSM` is `IDLE`, `CONSTRUCTED` is 0, and `TIMINGS`, `CONFIG` and `RESULT` have no
value; and every invariant above holds. The values of the other elements are the model's (log 4, log 5). -/
def Obligations.ResetState : Prop :=
  State.reset.fsm = .idle ∧ State.reset.constructed = false ∧ State.reset.timings = none ∧
  State.reset.config = none ∧ State.reset.result = none ∧
  seqOk State.reset = true ∧ countsOk State.reset = true ∧ exitOk State.reset = true ∧
  lifecycleOk State.reset = true ∧ timingsOk State.reset = true ∧ clockOk State.reset = true ∧
  undisturbed State.reset = true ∧ peOk State.reset = true ∧ peOffOk State.reset = true ∧
  ackOk State.reset = true ∧ resultOk State.reset = true ∧ memoryOk State.reset = true

/-! ## Rules about the whole machine -/

/-- `HALT` (60_exceptions.md R224; 70_reset_and_hazards.md R248): no step but a reset leaves it, and no step in it makes
an access or a strobe, writes `RESULT`, `TIMINGS`, `CONFIG` or `CONSTRUCTED`, or accepts a command. That the waiting host
issues none is log 13. -/
def Obligations.HaltIsLeftByResetOnly : Prop :=
  ∀ (s t : State) (r : FatalReason), s.fsm = .halt r → step s = .next t →
    (∃ p xs, s.host.inputs = .reset p :: xs ∧ t.fsm = .idle) ∨
    (t.fsm = .halt r ∧ t.trace = s.trace ∧ t.result = s.result ∧ t.timings = s.timings ∧ t.config = s.config ∧
      t.constructed = s.constructed ∧ t.host.program = s.host.program)

/-- Who writes the handle (43_configuration.md R205; 10_state.md R25 to R27): `TIMINGS` changes only as one assignment at
the end of `INIT` or `RECONF`, after the third clock register is written, `CONFIG` and `CONSTRUCTED` only at the end of
`INIT`; and reset. -/
def Obligations.HandleWriters : Prop :=
  ∀ s t : State, step s = .next t →
    (∃ p xs, s.host.inputs = .reset p :: xs) ∨
    (s.fsm = .cfg .c10 ∧ t.timings = some s.plan ∧ t.config = some s.pull ∧ t.constructed = true) ∨
    (s.fsm = .cfg .g4 ∧ t.timings = some s.plan ∧ t.config = s.config ∧ t.constructed = s.constructed) ∨
    (t.timings = s.timings ∧ t.config = s.config ∧ t.constructed = s.constructed)

/-- No rule of the sequencer reads `TIMINGS` (43_configuration.md R208; 10_state.md R25), nor `CONFIG` nor the operands
of an earlier configuration command: a step of a running transfer command does the same, access for access, whatever
their values are. -/
def Obligations.TransfersIgnoreTimings : Prop :=
  ∀ (s t : State) (tm : Option Timings) (cf : Option PinConfig) (f : Nat) (p : PinConfig) (q : Timings),
    s.host.inputs = [] → s.running = true → (∀ k, s.fsm ≠ .cfg k) → step s = .next t →
    step { s with timings := tm, config := cf, freq := f, pull := p, plan := q } =
      .next { t with timings := tm, config := cf, freq := f, pull := p, plan := q }
end

