-- ==== Sys2Proof/Laws/Bits.lean ====
section
/-! SUPPORT. Bits of register values under the masks of the port primitives. -/

namespace Sys2Proof.Machine

@[simp] theorem hasBit_maskBit (n k : Nat) : hasBit (maskBit n) k = (decide (n < 16) && decide (n = k)) := by
  simp [hasBit, maskBit, BitVec.getLsbD_twoPow]

@[simp] theorem hasBit_or (a b : Word) (k : Nat) : hasBit (a ||| b) k = (hasBit a k || hasBit b k) := by
  simp [hasBit]

@[simp] theorem hasBit_and (a b : Word) (k : Nat) : hasBit (a &&& b) k = (hasBit a k && hasBit b k) := by
  simp [hasBit]

@[simp] theorem hasBit_zero (k : Nat) : hasBit 0 k = false := by simp [hasBit]

/-- A cleared bit is 0 and every other bit stays (20_memory.md R65). -/
theorem hasBit_clearBit (w : Word) (n k : Nat) : hasBit (clearBit w n) k = (hasBit w k && !decide (n = k)) := by
  by_cases hk : k < 16
  · by_cases hn : n = k
    · subst hn; simp [hasBit, clearBit, maskBit, hk]
    · have hm : (BitVec.twoPow 16 n).getLsbD k = false := by simp [BitVec.getLsbD_twoPow, hn]
      rw [hasBit, clearBit, maskBit, BitVec.getLsbD_and, BitVec.getLsbD_not, hm]
      simp [hasBit, hk, hn]
  · simp [hasBit, BitVec.getLsbD_of_ge w k (by omega), BitVec.getLsbD_of_ge (clearBit w n) k (by omega)]

/-- Under the mask the new value, elsewhere the old one (20_memory.md R64). -/
theorem hasBit_underMask (m old new : Word) (k : Nat) :
    hasBit (underMask m old new) k = if hasBit m k then hasBit new k else hasBit old k := by
  unfold hasBit underMask
  rw [BitVec.getLsbD_or, BitVec.getLsbD_and, BitVec.getLsbD_and, BitVec.getLsbD_not]
  by_cases hk : k < 16
  · cases m.getLsbD k <;> simp [hk]
  · rw [BitVec.getLsbD_of_ge m k (by omega), BitVec.getLsbD_of_ge old k (by omega)]
    simp

/-- Two register values with the same bits are equal. -/
theorem word_ext_bits (a b : Word) (h : ∀ k, hasBit a k = hasBit b k) : a = b :=
  BitVec.eq_of_getLsbD_eq fun k _ => h k

/-- What a `STAT1` read returns, bit by bit. -/
theorem hasBit_stat1Answer (old a : Word) (k : Nat) :
    hasBit (stat1Answer old a) k = (hasBit a k || (hasBit old k && hasBit stickyStat1 k)) := by
  simp [stat1Answer]

/-- What a `CTRL1` read returns, bit by bit: `PE` and `ACK` are the block's, `START` and `STOP` are only cleared. -/
theorem hasBit_ctrl1Answer (old a : Word) (k : Nat) :
    hasBit (ctrl1Answer old a) k =
      if k = 0 ∨ k = 10 then hasBit old k else if k = 8 ∨ k = 9 then hasBit old k && hasBit a k else hasBit a k := by
  simp only [ctrl1Answer, hasBit_underMask, hasBit_or, hasBit_and, hasBit_maskBit, Bit.pe, Bit.ack, Bit.start, Bit.stop]
  by_cases h0 : k = 0
  · simp [h0]
  by_cases h1 : k = 10
  · simp [h1]
  by_cases h2 : k = 8
  · simp [h2]
  by_cases h3 : k = 9
  · simp [h3]
  simp [h0, h1, h2, h3, Ne.symm h0, Ne.symm h1, Ne.symm h2, Ne.symm h3]

/-- The address byte has the direction in bit 0 (30_encoding.md R96). -/
theorem addrByte_bit_zero (a : BitVec 7) (dir : Bool) : (addrByte a dir).getLsbD 0 = dir := by
  cases dir <;> simp [addrByte]

/-- The address byte has the address in bits 7:1 (30_encoding.md R96). -/
theorem addrByte_bit_succ (a : BitVec 7) (dir : Bool) (k : Nat) : (addrByte a dir).getLsbD (k + 1) = a.getLsbD k := by
  by_cases hk : k < 7
  · cases dir
    · simp [addrByte, show k + 1 < 8 by omega]
    · simp [addrByte, show k + 1 < 8 by omega]
  · simp [BitVec.getLsbD_of_ge _ k (show 7 ≤ k by omega), BitVec.getLsbD_of_ge _ (k + 1) (show 8 ≤ k + 1 by omega)]

/-- The byte a `DATA` value carries (10_state.md R34). -/
@[simp] theorem dataByte_dataWord (b : Byte) : dataByte (dataWord b) = b := by
  apply BitVec.eq_of_getLsbD_eq
  intro k hk
  simp [dataByte, dataWord, hk]
  omega

end Sys2Proof.Machine
end

