-- ==== Sys2Proof/Laws/Decode.lean ====
section
/-! SUPPORT. The fields of a packed descriptor or record are the fields it was packed from (30_encoding.md R92, R93,
R101), and a descriptor or record is packed from its own fields. -/

namespace Sys2Proof

section CT
variable (op : BitVec 8) (a : BitVec 7) (w n : BitVec 16)

@[simp] theorem descOpcode_packCT : descOpcode (packCT op a w n) = op := by
  change (op ++ 0#1 ++ a ++ w ++ n ++ 0#16).extractLsb' 56 8 = _
  rw [BitVec.extractLsb'_append_eq_of_le (by decide), BitVec.extractLsb'_append_eq_of_le (by decide),
    BitVec.extractLsb'_append_eq_of_le (by decide), BitVec.extractLsb'_append_eq_of_le (by decide),
    BitVec.extractLsb'_append_eq_of_le (by decide)]
  exact BitVec.extractLsb'_eq_self
@[simp] theorem ctReservedHigh_packCT : ctReservedHigh (packCT op a w n) = 0 := by
  change (op ++ 0#1 ++ a ++ w ++ n ++ 0#16).extractLsb' 55 1 = _
  rw [BitVec.extractLsb'_append_eq_of_le (by decide), BitVec.extractLsb'_append_eq_of_le (by decide),
    BitVec.extractLsb'_append_eq_of_le (by decide), BitVec.extractLsb'_append_eq_of_le (by decide),
    BitVec.extractLsb'_append_eq_of_add_le (by decide)]
  exact BitVec.extractLsb'_eq_self
@[simp] theorem ctAddr7_packCT : ctAddr7 (packCT op a w n) = a := by
  change (op ++ 0#1 ++ a ++ w ++ n ++ 0#16).extractLsb' 48 7 = _
  rw [BitVec.extractLsb'_append_eq_of_le (by decide), BitVec.extractLsb'_append_eq_of_le (by decide),
    BitVec.extractLsb'_append_eq_of_le (by decide), BitVec.extractLsb'_append_eq_of_add_le (by decide)]
  exact BitVec.extractLsb'_eq_self
@[simp] theorem ctWlen_packCT : ctWlen (packCT op a w n) = w := by
  change (op ++ 0#1 ++ a ++ w ++ n ++ 0#16).extractLsb' 32 16 = _
  rw [BitVec.extractLsb'_append_eq_of_le (by decide), BitVec.extractLsb'_append_eq_of_le (by decide),
    BitVec.extractLsb'_append_eq_of_add_le (by decide)]
  exact BitVec.extractLsb'_eq_self
@[simp] theorem ctRlen_packCT : ctRlen (packCT op a w n) = n := by
  change (op ++ 0#1 ++ a ++ w ++ n ++ 0#16).extractLsb' 16 16 = _
  rw [BitVec.extractLsb'_append_eq_of_le (by decide), BitVec.extractLsb'_append_eq_of_add_le (by decide)]
  exact BitVec.extractLsb'_eq_self
@[simp] theorem ctReservedLow_packCT : ctReservedLow (packCT op a w n) = 0 := by
  change (op ++ 0#1 ++ a ++ w ++ n ++ 0#16).extractLsb' 0 16 = _
  rw [BitVec.extractLsb'_append_eq_of_add_le (by decide)]
  exact BitVec.extractLsb'_eq_self

end CT

section CF
variable (op : BitVec 8) (sda scl : BitVec 1) (f : BitVec 32)

@[simp] theorem descOpcode_packCF : descOpcode (packCF op sda scl f) = op := by
  change (op ++ 0#22 ++ sda ++ scl ++ f).extractLsb' 56 8 = _
  rw [BitVec.extractLsb'_append_eq_of_le (by decide), BitVec.extractLsb'_append_eq_of_le (by decide),
    BitVec.extractLsb'_append_eq_of_le (by decide), BitVec.extractLsb'_append_eq_of_le (by decide)]
  exact BitVec.extractLsb'_eq_self
@[simp] theorem cfReserved_packCF : cfReserved (packCF op sda scl f) = 0 := by
  change (op ++ 0#22 ++ sda ++ scl ++ f).extractLsb' 34 22 = _
  rw [BitVec.extractLsb'_append_eq_of_le (by decide), BitVec.extractLsb'_append_eq_of_le (by decide),
    BitVec.extractLsb'_append_eq_of_le (by decide), BitVec.extractLsb'_append_eq_of_add_le (by decide)]
  exact BitVec.extractLsb'_eq_self
@[simp] theorem cfSda_packCF : cfSda (packCF op sda scl f) = sda := by
  change (op ++ 0#22 ++ sda ++ scl ++ f).extractLsb' 33 1 = _
  rw [BitVec.extractLsb'_append_eq_of_le (by decide), BitVec.extractLsb'_append_eq_of_le (by decide),
    BitVec.extractLsb'_append_eq_of_add_le (by decide)]
  exact BitVec.extractLsb'_eq_self
@[simp] theorem cfScl_packCF : cfScl (packCF op sda scl f) = scl := by
  change (op ++ 0#22 ++ sda ++ scl ++ f).extractLsb' 32 1 = _
  rw [BitVec.extractLsb'_append_eq_of_le (by decide), BitVec.extractLsb'_append_eq_of_add_le (by decide)]
  exact BitVec.extractLsb'_eq_self
@[simp] theorem cfFreq_packCF : cfFreq (packCF op sda scl f) = f := by
  change (op ++ 0#22 ++ sda ++ scl ++ f).extractLsb' 0 32 = _
  rw [BitVec.extractLsb'_append_eq_of_add_le (by decide)]
  exact BitVec.extractLsb'_eq_self

end CF

section P
variable (kind : BitVec 2) (off : BitVec 6) (mask value : Word)

@[simp] theorem recKind_packP : recKind (packP kind off mask value) = kind := by
  change (kind ++ off ++ mask ++ value).extractLsb' 38 2 = _
  rw [BitVec.extractLsb'_append_eq_of_le (by decide), BitVec.extractLsb'_append_eq_of_le (by decide),
    BitVec.extractLsb'_append_eq_of_le (by decide)]
  exact BitVec.extractLsb'_eq_self
@[simp] theorem recOffset_packP : recOffset (packP kind off mask value) = off := by
  change (kind ++ off ++ mask ++ value).extractLsb' 32 6 = _
  rw [BitVec.extractLsb'_append_eq_of_le (by decide), BitVec.extractLsb'_append_eq_of_le (by decide),
    BitVec.extractLsb'_append_eq_of_add_le (by decide)]
  exact BitVec.extractLsb'_eq_self
@[simp] theorem recMask_packP : recMask (packP kind off mask value) = mask := by
  change (kind ++ off ++ mask ++ value).extractLsb' 16 16 = _
  rw [BitVec.extractLsb'_append_eq_of_le (by decide), BitVec.extractLsb'_append_eq_of_add_le (by decide)]
  exact BitVec.extractLsb'_eq_self
@[simp] theorem recValue_packP : recValue (packP kind off mask value) = value := by
  change (kind ++ off ++ mask ++ value).extractLsb' 0 16 = _
  rw [BitVec.extractLsb'_append_eq_of_add_le (by decide)]
  exact BitVec.extractLsb'_eq_self

end P

/-- Neighbouring slices join. -/
theorem slices_join {w : Nat} (x : BitVec w) (hi lo n m : Nat) (h : hi = lo + n) :
    x.extractLsb' hi m ++ x.extractLsb' lo n = x.extractLsb' lo (m + n) :=
  BitVec.extractLsb'_append_extractLsb'_eq_extractLsb' h

/-- A record is packed from its own fields. -/
theorem packP_fields (r : Record) : packP (recKind r) (recOffset r) (recMask r) (recValue r) = r := by
  change r.extractLsb' 38 2 ++ r.extractLsb' 32 6 ++ r.extractLsb' 16 16 ++ r.extractLsb' 0 16 = r
  rw [slices_join r 38 32 6 2 rfl, slices_join r 32 16 16 _ rfl, slices_join r 16 0 16 _ rfl]
  exact BitVec.extractLsb'_eq_self

/-- A descriptor is its fields of format `CT` in their order. -/
theorem slices_CT (d : Descriptor) :
    (descOpcode d ++ ctReservedHigh d ++ ctAddr7 d ++ ctWlen d ++ ctRlen d ++ ctReservedLow d : BitVec _) = d := by
  change d.extractLsb' 56 8 ++ d.extractLsb' 55 1 ++ d.extractLsb' 48 7 ++ d.extractLsb' 32 16 ++
    d.extractLsb' 16 16 ++ d.extractLsb' 0 16 = d
  rw [slices_join d 56 55 1 8 rfl, slices_join d 55 48 7 _ rfl, slices_join d 48 32 16 _ rfl,
    slices_join d 32 16 16 _ rfl, slices_join d 16 0 16 _ rfl]
  exact BitVec.extractLsb'_eq_self

/-- A descriptor is its fields of format `CF` in their order. -/
theorem slices_CF (d : Descriptor) :
    (descOpcode d ++ cfReserved d ++ cfSda d ++ cfScl d ++ cfFreq d : BitVec _) = d := by
  change d.extractLsb' 56 8 ++ d.extractLsb' 34 22 ++ d.extractLsb' 33 1 ++ d.extractLsb' 32 1 ++
    d.extractLsb' 0 32 = d
  rw [slices_join d 56 34 22 8 rfl, slices_join d 34 33 1 _ rfl, slices_join d 33 32 1 _ rfl,
    slices_join d 32 0 32 _ rfl]
  exact BitVec.extractLsb'_eq_self

/-- A descriptor of format `CT` with its reserved bits 0 is packed from its own fields. -/
theorem packCT_fields (d : Descriptor) (h : ctReservedHigh d = 0) (l : ctReservedLow d = 0) :
    packCT (descOpcode d) (ctAddr7 d) (ctWlen d) (ctRlen d) = d := by
  rw [packCT, show (0#1) = ctReservedHigh d from h.symm, show (0#16) = ctReservedLow d from l.symm]
  exact slices_CT d

/-- A descriptor of format `CF` with its reserved bits 0 is packed from its own fields. -/
theorem packCF_fields (d : Descriptor) (h : cfReserved d = 0) :
    packCF (descOpcode d) (cfSda d) (cfScl d) (cfFreq d) = d := by
  rw [packCF, show (0#22) = cfReserved d from h.symm]
  exact slices_CF d

/-- The bit a flag is encoded as, read back. -/
@[simp] theorem bit1_eq_one (b : Bool) : (bit1 b == 1#1) = b := by cases b <;> rfl

/-- A bit read as a flag and encoded again. -/
@[simp] theorem bit1_of_eq_one (x : BitVec 1) : bit1 (x == 1#1) = x := by
  revert x; decide

/-! ### The value field of `P.WR_CCR` (30_encoding.md R102) -/

@[simp] theorem ccrValue_fs (fs duty : Bool) (c : BitVec 12) : (ccrValue fs duty c).extractLsb' 15 1 = bit1 fs := by
  change (bit1 fs ++ bit1 duty ++ 0#2 ++ c).extractLsb' 15 1 = _
  rw [BitVec.extractLsb'_append_eq_of_le (by decide), BitVec.extractLsb'_append_eq_of_le (by decide),
    BitVec.extractLsb'_append_eq_of_le (by decide)]
  exact BitVec.extractLsb'_eq_self
@[simp] theorem ccrValue_duty (fs duty : Bool) (c : BitVec 12) :
    (ccrValue fs duty c).extractLsb' 14 1 = bit1 duty := by
  change (bit1 fs ++ bit1 duty ++ 0#2 ++ c).extractLsb' 14 1 = _
  rw [BitVec.extractLsb'_append_eq_of_le (by decide), BitVec.extractLsb'_append_eq_of_le (by decide),
    BitVec.extractLsb'_append_eq_of_add_le (by decide)]
  exact BitVec.extractLsb'_eq_self
@[simp] theorem ccrValue_zero (fs duty : Bool) (c : BitVec 12) : (ccrValue fs duty c).extractLsb' 12 2 = 0 := by
  change (bit1 fs ++ bit1 duty ++ 0#2 ++ c).extractLsb' 12 2 = _
  rw [BitVec.extractLsb'_append_eq_of_le (by decide), BitVec.extractLsb'_append_eq_of_add_le (by decide)]
  exact BitVec.extractLsb'_eq_self
@[simp] theorem ccrValue_ccr (fs duty : Bool) (c : BitVec 12) : (ccrValue fs duty c).extractLsb' 0 12 = c := by
  change (bit1 fs ++ bit1 duty ++ 0#2 ++ c).extractLsb' 0 12 = _
  rw [BitVec.extractLsb'_append_eq_of_add_le (by decide)]
  exact BitVec.extractLsb'_eq_self

/-- The value field is packed from its own parts. -/
theorem ccrValue_fields (v : Word) (h : v.extractLsb' 12 2 = 0) :
    ccrValue (v.extractLsb' 15 1 == 1#1) (v.extractLsb' 14 1 == 1#1) (v.extractLsb' 0 12) = v := by
  rw [ccrValue, bit1_of_eq_one, bit1_of_eq_one, show (0#2) = v.extractLsb' 12 2 from h.symm]
  change v.extractLsb' 15 1 ++ v.extractLsb' 14 1 ++ v.extractLsb' 12 2 ++ v.extractLsb' 0 12 = v
  rw [slices_join v 15 14 1 1 rfl, slices_join v 14 12 2 _ rfl, slices_join v 12 0 12 _ rfl]
  exact BitVec.extractLsb'_eq_self

/-- A value with its high byte 0 is its low byte, extended. -/
theorem zeros_append_byte (v : Word) (h : v.extractLsb' 8 8 = 0) : (0#8 ++ v.extractLsb' 0 8 : Word) = v := by
  rw [show (0#8) = v.extractLsb' 8 8 from h.symm]
  rw [slices_join v 8 0 8 8 rfl]
  exact BitVec.extractLsb'_eq_self

/-- A value with bits 15:6 at 0 is its low six bits, extended. -/
theorem zeros_append_six (v : Word) (h : v.extractLsb' 6 10 = 0) : (0#10 ++ v.extractLsb' 0 6 : Word) = v := by
  rw [show (0#10) = v.extractLsb' 6 10 from h.symm]
  rw [slices_join v 6 0 6 10 rfl]
  exact BitVec.extractLsb'_eq_self

@[simp] theorem append_byte_high (b : Byte) : (0#8 ++ b : Word).extractLsb' 8 8 = 0 := by
  rw [BitVec.extractLsb'_append_eq_of_le (by decide)]
  exact BitVec.extractLsb'_eq_self
@[simp] theorem append_byte_low (b : Byte) : (0#8 ++ b : Word).extractLsb' 0 8 = b := by
  rw [BitVec.extractLsb'_append_eq_of_add_le (by decide)]
  exact BitVec.extractLsb'_eq_self
@[simp] theorem append_six_high (d : BitVec 6) : (0#10 ++ d : Word).extractLsb' 6 10 = 0 := by
  rw [BitVec.extractLsb'_append_eq_of_le (by decide)]
  exact BitVec.extractLsb'_eq_self
@[simp] theorem append_six_low (d : BitVec 6) : (0#10 ++ d : Word).extractLsb' 0 6 = d := by
  rw [BitVec.extractLsb'_append_eq_of_add_le (by decide)]
  exact BitVec.extractLsb'_eq_self

/-- Extending a byte with zeros is putting zeros in front of it. -/
theorem zeros_append_byte_eq (b : Byte) : (0#8 ++ b : Word) = b.zeroExtend 16 := by
  apply BitVec.eq_of_toNat_eq
  rw [BitVec.toNat_append]
  simp
  omega

/-- Extending a six-bit field with zeros is putting zeros in front of it. -/
theorem zeros_append_six_eq (d : BitVec 6) : (0#10 ++ d : Word) = d.zeroExtend 16 := by
  apply BitVec.eq_of_toNat_eq
  rw [BitVec.toNat_append]
  simp
  omega

/-! ### What a descriptor and a record decode to -/

/-- A descriptor decodes to a host command. -/
theorem decodeDescriptor_isPort {d : Descriptor} {i : Instr} (h : decodeDescriptor d = .ok i) : i.isPort = false := by
  revert h
  unfold decodeDescriptor whenReserved
  repeat' split
  all_goals first | (intro h; cases h; rfl) | (intro h; cases h)

/-- A record decodes to a micro-operation. -/
theorem decodeRecord_isPort {r : Record} {i : Instr} (h : decodeRecord r = .ok i) : i.isPort = true := by
  revert h
  unfold decodeRecord decodePRead decodePWrite decodePUpdate decodePClear
  repeat' split
  all_goals first | (intro h; cases h; rfl) | (intro h; cases h)

end Sys2Proof
end

