-- ==== Sys2Proof/Laws/Exec.lean ====
section
/-! SUPPORT. What each instruction answers, as one equation; and that the record a micro-operation leaves in the trace is
its encoding (30_encoding.md R101, R102). -/

namespace Sys2Proof.Machine

/-! ### The micro-operations -/

section Port
variable (s : State)

@[simp] theorem exec_pRdStat1 : exec .pRdStat1 s = .next (pRead .stat1 s) := rfl
@[simp] theorem exec_pRdStat2 : exec .pRdStat2 s = .next (pRead .stat2 s) := rfl
@[simp] theorem exec_pRdCtrl1 : exec .pRdCtrl1 s = .next (pRead .ctrl1 s) := rfl
@[simp] theorem exec_pRdData : exec .pRdData s = .next (pRead .data s) := rfl
@[simp] theorem exec_pWrData (b : Byte) : exec (.pWrData b) s = .next (pWrite (dataWord b) s) := rfl
@[simp] theorem exec_pSetStart : exec .pSetStart s = .next (pUpdate .ctrl1 0x0100 0x0100 s) := rfl
@[simp] theorem exec_pSetStartAck : exec .pSetStartAck s = .next (pUpdate .ctrl1 0x0500 0x0500 s) := rfl
@[simp] theorem exec_pNackStop : exec .pNackStop s = .next (pUpdate .ctrl1 0x0600 0x0200 s) := rfl
@[simp] theorem exec_pSetStop : exec .pSetStop s = .next (pUpdate .ctrl1 0x0200 0x0200 s) := rfl
@[simp] theorem exec_pPeOff : exec .pPeOff s = .next (pUpdate .ctrl1 0x0001 0x0000 s) := rfl
@[simp] theorem exec_pPeOn : exec .pPeOn s = .next (pUpdate .ctrl1 0x0001 0x0001 s) := rfl
@[simp] theorem exec_pWrFreq (d : BitVec 6) :
    exec (.pWrFreq d) s = .next (pUpdate .ctrl2 0x003F (d.zeroExtend 16) s) := rfl
@[simp] theorem exec_pWrCcr (fs duty : Bool) (c : BitVec 12) :
    exec (.pWrCcr fs duty c) s = .next (pUpdate .ccr 0xCFFF (ccrImage fs duty c) s) := rfl
@[simp] theorem exec_pWrTrise (r : BitVec 6) :
    exec (.pWrTrise r) s = .next (pUpdate .trise 0x003F (r.zeroExtend 16) s) := rfl
@[simp] theorem exec_pClrTimeout : exec .pClrTimeout s = .next (pClear Bit.timeout s) := rfl
@[simp] theorem exec_pClrPecerr : exec .pClrPecerr s = .next (pClear Bit.pecerr s) := rfl
@[simp] theorem exec_pClrOvr : exec .pClrOvr s = .next (pClear Bit.ovr s) := rfl
@[simp] theorem exec_pClrAf : exec .pClrAf s = .next (pClear Bit.af s) := rfl
@[simp] theorem exec_pClrArlo : exec .pClrArlo s = .next (pClear Bit.arlo s) := rfl
@[simp] theorem exec_pClrBerr : exec .pClrBerr s = .next (pClear Bit.berr s) := rfl

end Port

/-! ### Register images -/

/-- The register image of the clock-control fields is the value field of `P.WR_CCR` (30_encoding.md R97, R102). -/
theorem ccrImage_eq_ccrValue (fs duty : Bool) (c : BitVec 12) : ccrImage fs duty c = ccrValue fs duty c := by
  apply BitVec.eq_of_getLsbD_eq
  intro k hk
  change _ = (bit1 fs ++ bit1 duty ++ 0#2 ++ c).getLsbD k
  rw [BitVec.getLsbD_append, BitVec.getLsbD_append, BitVec.getLsbD_append]
  cases fs <;> cases duty <;> interval_cases k <;> simp [ccrImage, bit1, maskBit]

/-- The image of the clock-control fields as a number (30_encoding.md R97: `CCRIMG`). -/
theorem toNat_ccrImage (fs duty : Bool) (c : BitVec 12) :
    (ccrImage fs duty c).toNat = (if fs then 2 ^ 15 else 0) + (if duty then 2 ^ 14 else 0) + c.toNat := by
  rw [ccrImage_eq_ccrValue]
  change (bit1 fs ++ bit1 duty ++ 0#2 ++ c).toNat = _
  rw [BitVec.toNat_append, ← Nat.shiftLeft_add_eq_or_of_lt c.isLt, Nat.shiftLeft_eq]
  cases fs <;> cases duty <;> rfl

/-! ### The record of an access -/

/-- The record a micro-operation leaves in the trace is its encoding (30_encoding.md R101, R102). -/
theorem exec_record (i : Instr) (r : Record) (h : encode i = .record r) (s : State) :
    ∃ t v, exec i s = .next t ∧ t.trace = .port r v :: s.trace := by
  cases i with
  | init _ _ _ => cases h
  | write _ _ => cases h
  | read _ _ => cases h
  | wrrd _ _ _ => cases h
  | reconf _ => cases h
  | xiter => cases h
  | xact => cases h
  | pWrData b => cases h; exact ⟨_, none, rfl, by rw [zeros_append_byte_eq]; rfl⟩
  | pWrFreq d => cases h; exact ⟨_, none, rfl, by rw [zeros_append_six_eq]; rfl⟩
  | pWrCcr fs duty c => cases h; exact ⟨_, none, rfl, by rw [← ccrImage_eq_ccrValue]; rfl⟩
  | pWrTrise r => cases h; exact ⟨_, none, rfl, by rw [zeros_append_six_eq]; rfl⟩
  | pRdStat1 => cases h; exact ⟨_, some _, rfl, rfl⟩
  | pRdStat2 => cases h; exact ⟨_, some _, rfl, rfl⟩
  | pRdCtrl1 => cases h; exact ⟨_, some _, rfl, rfl⟩
  | pRdData => cases h; exact ⟨_, some _, rfl, rfl⟩
  | pSetStart => cases h; exact ⟨_, none, rfl, rfl⟩
  | pSetStartAck => cases h; exact ⟨_, none, rfl, rfl⟩
  | pNackStop => cases h; exact ⟨_, none, rfl, rfl⟩
  | pSetStop => cases h; exact ⟨_, none, rfl, rfl⟩
  | pPeOff => cases h; exact ⟨_, none, rfl, rfl⟩
  | pPeOn => cases h; exact ⟨_, none, rfl, rfl⟩
  | pClrTimeout => cases h; exact ⟨_, none, rfl, rfl⟩
  | pClrPecerr => cases h; exact ⟨_, none, rfl, rfl⟩
  | pClrOvr => cases h; exact ⟨_, none, rfl, rfl⟩
  | pClrAf => cases h; exact ⟨_, none, rfl, rfl⟩
  | pClrArlo => cases h; exact ⟨_, none, rfl, rfl⟩
  | pClrBerr => cases h; exact ⟨_, none, rfl, rfl⟩

/-! ### The commands -/

section Commands
variable {s : State}

theorem exec_write (hf : s.fsm = .idle) (hc : s.constructed = true) (a : BitVec 7) (w : Nat) :
    exec (.write a w) s = .next (startPhase .wr (latchTransfer .write a w 0 s)) := by
  simp [exec, execWrite, whenReady, hf, hc]

theorem exec_read (hf : s.fsm = .idle) (hc : s.constructed = true) (a : BitVec 7) (n : Nat) :
    exec (.read a n) s = .next (enterRead (latchTransfer .read a 0 n s)) := by
  simp [exec, execRead, whenReady, hf, hc]

theorem exec_wrrd (hf : s.fsm = .idle) (hc : s.constructed = true) (a : BitVec 7) (w n : Nat) :
    exec (.wrrd a w n) s = .next (startPhase .wr (latchTransfer .wrrd a w n s)) := by
  simp [exec, execWrrd, whenReady, hf, hc]

theorem exec_init (hf : s.fsm = .idle) (hc : s.constructed = false) {freq : Nat} (hw : freq ≤ Config.targetMax)
    (hr : ccrTooWide s.pclkHz freq = false) (scl sda : Bool) :
    exec (.init freq scl sda) s =
      .next (latchConfig .init freq { sdaPullup := sda, sclPullup := scl } .c1 s) := by
  simp [exec, execInit, whenFresh, acceptConfig, hf, hc, hr, Nat.not_lt.mpr hw]

theorem exec_reconf (hf : s.fsm = .idle) (hc : s.constructed = true) {freq : Nat} (hw : freq ≤ Config.targetMax)
    (hr : ccrTooWide s.pclkHz freq = false) :
    exec (.reconf freq) s = .next (latchConfig .reconf freq s.pull .g1 s) := by
  simp [exec, execReconf, whenReady, acceptConfig, hf, hc, hr, Nat.not_lt.mpr hw]

end Commands

/-- Everything the acceptance of a command can do (60_exceptions.md R225). -/
theorem exec_command_cases {i : Instr} (hi : i.isPort = false) {s t : State}
    (h : exec i s = .next t) :
    (s.fsm = .idle ∧ s.constructed = true ∧
      ((∃ a w, i = .write a w ∧ t = startPhase .wr (latchTransfer .write a w 0 s)) ∨
        (∃ a n, i = .read a n ∧ t = enterRead (latchTransfer .read a 0 n s)) ∨
        (∃ a w n, i = .wrrd a w n ∧ t = startPhase .wr (latchTransfer .wrrd a w n s)) ∨
        (∃ f, i = .reconf f ∧ f ≤ Config.targetMax ∧ ccrTooWide s.pclkHz f = false ∧
          t = latchConfig .reconf f s.pull .g1 s))) ∨
    (s.fsm = .idle ∧ s.constructed = false ∧ ∃ f scl sda, i = .init f scl sda ∧ f ≤ Config.targetMax ∧
      ccrTooWide s.pclkHz f = false ∧
      t = latchConfig .init f { sdaPullup := sda, sclPullup := scl } .c1 s) ∨
    (s.fsm = .idle ∧ (i = .xiter ∨ i = .xact) ∧ t = raiseFatal .unimplemented s) := by
  have hready : ∀ u : State, whenReady s (.next u) = .next t → s.fsm = .idle ∧ s.constructed = true ∧ t = u := by
    intro u hu
    unfold whenReady at hu
    split at hu
    · cases hu
    · split at hu
      · cases hu
      · cases hu; exact ⟨not_not.mp ‹_›, by simpa using ‹¬(!s.constructed) = true›, rfl⟩
  have hunimp : unimplemented s = .next t → s.fsm = .idle ∧ t = raiseFatal .unimplemented s := by
    intro hu
    unfold unimplemented at hu
    split at hu
    · cases hu
    · cases hu; exact ⟨not_not.mp ‹_›, rfl⟩
  have hconf : ∀ op f p k, acceptConfig op f p k s = .next t →
      f ≤ Config.targetMax ∧ ccrTooWide s.pclkHz f = false ∧ t = latchConfig op f p k s := by
    intro op f p k hu
    unfold acceptConfig at hu
    split at hu
    · cases hu
    · split at hu
      · cases hu
      · cases hu; exact ⟨Nat.not_lt.mp ‹_›, Bool.eq_false_iff.mpr ‹_›, rfl⟩
  cases i with
  | write a w => obtain ⟨h1, h2, h3⟩ := hready _ h; exact .inl ⟨h1, h2, .inl ⟨a, w, rfl, h3⟩⟩
  | read a n => obtain ⟨h1, h2, h3⟩ := hready _ h; exact .inl ⟨h1, h2, .inr (.inl ⟨a, n, rfl, h3⟩)⟩
  | wrrd a w n => obtain ⟨h1, h2, h3⟩ := hready _ h; exact .inl ⟨h1, h2, .inr (.inr (.inl ⟨a, w, n, rfl, h3⟩))⟩
  | xiter => obtain ⟨h1, h2⟩ := hunimp h; exact .inr (.inr ⟨h1, .inl rfl, h2⟩)
  | xact => obtain ⟨h1, h2⟩ := hunimp h; exact .inr (.inr ⟨h1, .inr rfl, h2⟩)
  | reconf f =>
    change whenReady s (acceptConfig .reconf f s.pull .g1 s) = .next t at h
    unfold whenReady at h
    split at h
    · cases h
    · split at h
      · cases h
      · obtain ⟨h1, h2, h3⟩ := hconf _ _ _ _ h
        exact .inl ⟨not_not.mp ‹_›, by simpa using ‹¬(!s.constructed) = true›, .inr (.inr (.inr ⟨f, rfl, h1, h2, h3⟩))⟩
  | init f scl sda =>
    change whenFresh s (acceptConfig .init f _ .c1 s) = .next t at h
    unfold whenFresh at h
    split at h
    · cases h
    · split at h
      · cases h
      · obtain ⟨h1, h2, h3⟩ := hconf _ _ _ _ h
        exact .inr (.inl ⟨not_not.mp ‹_›, Bool.eq_false_iff.mpr ‹_›, f, scl, sda, rfl, h1, h2, h3⟩)
  | _ => cases hi

end Sys2Proof.Machine
end

