-- ==== Sys2Proof/Laws/Memory.lean ====
section
/-! SUPPORT. Host buffers: a byte read after a write is the byte written, every other byte stays, and every operation
keeps the one form (log 18). -/

namespace Sys2Proof.Machine

@[simp] theorem Memory.read_nil (i : Nat) : Memory.read [] i = Memory.unlisted := rfl

theorem Memory.wfFrom_mono {lo lo' : Nat} {m : Memory} (h : Memory.wfFrom lo m = true) (hl : lo' ≤ lo) :
    Memory.wfFrom lo' m = true := by
  cases m with
  | nil => rfl
  | cons c m =>
    simp only [Memory.wfFrom, Bool.and_eq_true, decide_eq_true_eq] at h ⊢
    exact ⟨⟨by omega, h.1.2⟩, h.2⟩

/-- A byte below the least listed index is the unlisted one. -/
theorem Memory.read_below {lo : Nat} {m : Memory} (h : Memory.wfFrom lo m = true) {i : Nat} (hi : i < lo) :
    m.read i = Memory.unlisted := by
  induction m generalizing lo with
  | nil => rfl
  | cons c m ih =>
    simp only [Memory.wfFrom, Bool.and_eq_true, decide_eq_true_eq] at h
    rw [Memory.read, if_neg (by omega)]
    exact ih h.2 (by omega)

/-- A write keeps the one form. -/
theorem Memory.wfFrom_write {lo : Nat} {m : Memory} (h : Memory.wfFrom lo m = true) {i : Nat} (b : Byte)
    (hi : lo ≤ i) : Memory.wfFrom lo (m.write i b) = true := by
  induction m generalizing lo with
  | nil =>
    unfold Memory.write
    split
    · rfl
    · simp [Memory.wfFrom, *]
  | cons c m ih =>
    simp only [Memory.wfFrom, Bool.and_eq_true, decide_eq_true_eq] at h
    unfold Memory.write
    split
    · simp only [Memory.wfFrom, Bool.and_eq_true, decide_eq_true_eq]
      exact ⟨h.1, ih h.2 (by omega)⟩
    · split
      · split
        · exact Memory.wfFrom_mono h.2 (by omega)
        · simp only [Memory.wfFrom, Bool.and_eq_true, decide_eq_true_eq]
          exact ⟨⟨hi, ‹_›⟩, Memory.wfFrom_mono h.2 (by omega)⟩
      · split
        · simp only [Memory.wfFrom, Bool.and_eq_true, decide_eq_true_eq]
          exact h
        · simp only [Memory.wfFrom, Bool.and_eq_true, decide_eq_true_eq]
          exact ⟨⟨hi, ‹_›⟩, ⟨⟨by omega, h.1.2⟩, h.2⟩⟩

theorem Memory.wf_write {m : Memory} (h : m.wf = true) (i : Nat) (b : Byte) : (m.write i b).wf = true :=
  Memory.wfFrom_write h b (Nat.zero_le i)

/-- A read after a write to the same index gives the byte written. -/
theorem Memory.read_write_same {lo : Nat} {m : Memory} (h : Memory.wfFrom lo m = true) (i : Nat) (b : Byte) :
    (m.write i b).read i = b := by
  induction m generalizing lo with
  | nil =>
    unfold Memory.write
    split
    · exact ‹b = _›.symm
    · simp [Memory.read]
  | cons c m ih =>
    simp only [Memory.wfFrom, Bool.and_eq_true, decide_eq_true_eq] at h
    unfold Memory.write
    split
    · rw [Memory.read, if_neg (by omega)]
      exact ih h.2
    · split
      · split
        · rw [Memory.read_below h.2 (by omega)]; exact ‹b = _›.symm
        · simp [Memory.read]
      · split
        · rw [Memory.read, if_neg ‹_›, Memory.read_below h.2 (by omega)]; exact ‹b = _›.symm
        · simp [Memory.read]

/-- A write leaves every other byte. -/
theorem Memory.read_write_other {m : Memory} {i j : Nat} (b : Byte) (h : j ≠ i) :
    (m.write i b).read j = m.read j := by
  induction m with
  | nil =>
    unfold Memory.write
    split
    · rfl
    · simp [Memory.read, Ne.symm h]
  | cons c m ih =>
    unfold Memory.write
    split
    · simp only [Memory.read, ih]
    · split
      · have hc : c.1 ≠ j := by omega
        split <;> simp [Memory.read, hc, Ne.symm h]
      · split
        · rfl
        · simp [Memory.read, Ne.symm h]

theorem Memory.wfFrom_ofBytesAt (i : Nat) (bs : List Byte) : Memory.wfFrom i (Memory.ofBytesAt i bs) = true := by
  induction bs generalizing i with
  | nil => rfl
  | cons b bs ih =>
    unfold Memory.ofBytesAt
    split
    · exact Memory.wfFrom_mono (ih (i + 1)) (by omega)
    · simp only [Memory.wfFrom, Bool.and_eq_true, decide_eq_true_eq]
      exact ⟨⟨Nat.le_refl i, ‹_›⟩, ih (i + 1)⟩

theorem Memory.wf_ofBytes (bs : List Byte) : (Memory.ofBytes bs).wf = true := Memory.wfFrom_ofBytesAt 0 bs

/-- Two buffers in the one form that read alike are equal data. -/
theorem Memory.ext_of_read {lo : Nat} {m m' : Memory} (h : Memory.wfFrom lo m = true) (h' : Memory.wfFrom lo m' = true)
    (he : ∀ i, m.read i = m'.read i) : m = m' := by
  induction m generalizing lo m' with
  | nil =>
    cases m' with
    | nil => rfl
    | cons c m' =>
      simp only [Memory.wfFrom, Bool.and_eq_true, decide_eq_true_eq] at h'
      have := he c.1
      simp [Memory.read] at this
      exact absurd this.symm h'.1.2
  | cons c m ih =>
    simp only [Memory.wfFrom, Bool.and_eq_true, decide_eq_true_eq] at h
    cases m' with
    | nil =>
      have := he c.1
      simp [Memory.read] at this
      exact absurd this h.1.2
    | cons c' m' =>
      simp only [Memory.wfFrom, Bool.and_eq_true, decide_eq_true_eq] at h'
      have h1 := he c.1
      have h2 := he c'.1
      simp only [Memory.read, if_true] at h1 h2
      have hk : c.1 = c'.1 := by
        by_contra hne
        rcases Nat.lt_or_ge c.1 c'.1 with hlt | hge
        · rw [if_neg (by omega), Memory.read_below h'.2 (by omega)] at h1
          exact h.1.2 h1
        · rw [if_neg hne, Memory.read_below h.2 (by omega)] at h2
          exact h'.1.2 h2.symm
      have hb : c.2 = c'.2 := by rwa [if_pos hk.symm] at h1
      have hm : m = m' := by
        apply ih h.2 (by rw [hk]; exact h'.2)
        intro i
        by_cases hi : c.1 = i
        · subst hi
          rw [Memory.read_below h.2 (by omega), Memory.read_below h'.2 (by omega)]
        · have := he i
          rwa [Memory.read, Memory.read, if_neg hi, if_neg (by omega)] at this
      rw [hm, Prod.ext hk hb]

end Sys2Proof.Machine
end

