-- ==== Sys2Proof/Laws/PerInstr.lean ====
section
/-! SUPPORT. Statements made per instruction. `MatchesTableRow`: the encoded word of an instruction matches its row of
spec/opcode_table.json (30_encoding.md R95 for the commands, R102 for the micro-operations). -/

namespace Sys2Proof.Laws

/-- `mask` and `match` of an instruction's row of spec/opcode_table.json. -/
def tableRow : Instr → Nat × Nat
  | .init _ _ _ => (0xFFFFFFFC00000000, 0x0100000000000000)
  | .write _ _ => (0xFF800000FFFFFFFF, 0x0200000000000000)
  | .read _ _ => (0xFF80FFFF0000FFFF, 0x0300000000000000)
  | .wrrd _ _ _ => (0xFF8000000000FFFF, 0x0400000000000000)
  | .reconf _ => (0xFFFFFFFF00000000, 0x0500000000000000)
  | .xiter => (0xFF00000000000000, 0x0600000000000000)
  | .xact => (0xFF00000000000000, 0x0700000000000000)
  | .pRdStat1 => (0xFFFFFFFFFF, 0x1400000000)
  | .pRdStat2 => (0xFFFFFFFFFF, 0x1800000000)
  | .pRdCtrl1 => (0xFFFFFFFFFF, 0x0000000000)
  | .pRdData => (0xFFFFFFFFFF, 0x1000000000)
  | .pWrData _ => (0xFFFFFFFF00, 0x50FFFF0000)
  | .pSetStart => (0xFFFFFFFFFF, 0x8001000100)
  | .pSetStartAck => (0xFFFFFFFFFF, 0x8005000500)
  | .pNackStop => (0xFFFFFFFFFF, 0x8006000200)
  | .pSetStop => (0xFFFFFFFFFF, 0x8002000200)
  | .pPeOff => (0xFFFFFFFFFF, 0x8000010000)
  | .pPeOn => (0xFFFFFFFFFF, 0x8000010001)
  | .pWrFreq _ => (0xFFFFFFFFC0, 0x84003F0000)
  | .pWrCcr _ _ _ => (0xFFFFFF3000, 0x9CCFFF0000)
  | .pWrTrise _ => (0xFFFFFFFFC0, 0xA0003F0000)
  | .pClrTimeout => (0xFFFFFFFFFF, 0xD440000000)
  | .pClrPecerr => (0xFFFFFFFFFF, 0xD410000000)
  | .pClrOvr => (0xFFFFFFFFFF, 0xD408000000)
  | .pClrAf => (0xFFFFFFFFFF, 0xD404000000)
  | .pClrArlo => (0xFFFFFFFFFF, 0xD402000000)
  | .pClrBerr => (0xFFFFFFFFFF, 0xD401000000)

/-- The word of an encoded instruction as a number. -/
def imageNat : Image → Nat
  | .descriptor d => d.toNat
  | .record r => r.toNat

/-- Under the mask of its row the word of an encoded instruction is the row's match. -/
def MatchesTableRow.Statement (i : Instr) : Prop := imageNat (encode i) &&& (tableRow i).1 = (tableRow i).2

theorem MatchesTableRow.init (freq : Nat) (scl sda : Bool) : MatchesTableRow.Statement (.init freq scl sda) := by
  have h : (0x01#8 ++ 0#22 ++ bit1 sda ++ bit1 scl ++ BitVec.ofNat 32 freq) &&&
      (0xFF#8 ++ 0x3FFFFF#22 ++ 0#1 ++ 0#1 ++ 0#32) =
      0x01#8 ++ 0#22 ++ 0#1 ++ 0#1 ++ 0#32 := by
    simp only [BitVec.and_append, BitVec.and_zero]; rfl
  exact congrArg BitVec.toNat h
theorem MatchesTableRow.write (a : BitVec 7) (w : Nat) : MatchesTableRow.Statement (.write a w) := by
  have h : (0x02#8 ++ 0#1 ++ a ++ BitVec.ofNat 16 w ++ 0#16 ++ 0#16) &&&
      (0xFF#8 ++ 1#1 ++ 0#7 ++ 0#16 ++ 0xFFFF#16 ++ 0xFFFF#16) =
      0x02#8 ++ 0#1 ++ 0#7 ++ 0#16 ++ 0#16 ++ 0#16 := by
    simp only [BitVec.and_append, BitVec.and_zero]; rfl
  exact congrArg BitVec.toNat h
theorem MatchesTableRow.read (a : BitVec 7) (n : Nat) : MatchesTableRow.Statement (.read a n) := by
  have h : (0x03#8 ++ 0#1 ++ a ++ 0#16 ++ BitVec.ofNat 16 n ++ 0#16) &&&
      (0xFF#8 ++ 1#1 ++ 0#7 ++ 0xFFFF#16 ++ 0#16 ++ 0xFFFF#16) =
      0x03#8 ++ 0#1 ++ 0#7 ++ 0#16 ++ 0#16 ++ 0#16 := by
    simp only [BitVec.and_append, BitVec.and_zero]; rfl
  exact congrArg BitVec.toNat h
theorem MatchesTableRow.wrrd (a : BitVec 7) (w n : Nat) : MatchesTableRow.Statement (.wrrd a w n) := by
  have h : (0x04#8 ++ 0#1 ++ a ++ BitVec.ofNat 16 w ++ BitVec.ofNat 16 n ++ 0#16) &&&
      (0xFF#8 ++ 1#1 ++ 0#7 ++ 0#16 ++ 0#16 ++ 0xFFFF#16) =
      0x04#8 ++ 0#1 ++ 0#7 ++ 0#16 ++ 0#16 ++ 0#16 := by
    simp only [BitVec.and_append, BitVec.and_zero]; rfl
  exact congrArg BitVec.toNat h
theorem MatchesTableRow.reconf (freq : Nat) : MatchesTableRow.Statement (.reconf freq) := by
  have h : (0x05#8 ++ 0#22 ++ 0#1 ++ 0#1 ++ BitVec.ofNat 32 freq) &&&
      (0xFF#8 ++ 0x3FFFFF#22 ++ 1#1 ++ 1#1 ++ 0#32) =
      0x05#8 ++ 0#22 ++ 0#1 ++ 0#1 ++ 0#32 := by
    simp only [BitVec.and_append, BitVec.and_zero]; rfl
  exact congrArg BitVec.toNat h
theorem MatchesTableRow.xiter : MatchesTableRow.Statement .xiter := rfl
theorem MatchesTableRow.xact : MatchesTableRow.Statement .xact := rfl
theorem MatchesTableRow.pRdStat1 : MatchesTableRow.Statement .pRdStat1 := rfl
theorem MatchesTableRow.pRdStat2 : MatchesTableRow.Statement .pRdStat2 := rfl
theorem MatchesTableRow.pRdCtrl1 : MatchesTableRow.Statement .pRdCtrl1 := rfl
theorem MatchesTableRow.pRdData : MatchesTableRow.Statement .pRdData := rfl
theorem MatchesTableRow.pWrData (b : Byte) : MatchesTableRow.Statement (.pWrData b) := by
  have h : (1#2 ++ 0x10#6 ++ 0xFFFF#16 ++ (0#8 ++ b)) &&&
      (3#2 ++ 0x3F#6 ++ 0xFFFF#16 ++ (0xFF#8 ++ 0#8)) =
      1#2 ++ 0x10#6 ++ 0xFFFF#16 ++ (0#8 ++ 0#8) := by
    simp only [BitVec.and_append, BitVec.and_zero]; rfl
  exact congrArg BitVec.toNat h
theorem MatchesTableRow.pSetStart : MatchesTableRow.Statement .pSetStart := rfl
theorem MatchesTableRow.pSetStartAck : MatchesTableRow.Statement .pSetStartAck := rfl
theorem MatchesTableRow.pNackStop : MatchesTableRow.Statement .pNackStop := rfl
theorem MatchesTableRow.pSetStop : MatchesTableRow.Statement .pSetStop := rfl
theorem MatchesTableRow.pPeOff : MatchesTableRow.Statement .pPeOff := rfl
theorem MatchesTableRow.pPeOn : MatchesTableRow.Statement .pPeOn := rfl
theorem MatchesTableRow.pWrFreq (d : BitVec 6) : MatchesTableRow.Statement (.pWrFreq d) := by
  have h : (2#2 ++ 0x04#6 ++ 0x003F#16 ++ (0#10 ++ d)) &&&
      (3#2 ++ 0x3F#6 ++ 0xFFFF#16 ++ (0x3FF#10 ++ 0#6)) =
      2#2 ++ 0x04#6 ++ 0x003F#16 ++ (0#10 ++ 0#6) := by
    simp only [BitVec.and_append, BitVec.and_zero]; rfl
  exact congrArg BitVec.toNat h
theorem MatchesTableRow.pWrCcr (fs duty : Bool) (c : BitVec 12) : MatchesTableRow.Statement (.pWrCcr fs duty c) := by
  have h : (2#2 ++ 0x1C#6 ++ 0xCFFF#16 ++ (bit1 fs ++ bit1 duty ++ 0#2 ++ c)) &&&
      (3#2 ++ 0x3F#6 ++ 0xFFFF#16 ++ (0#1 ++ 0#1 ++ 3#2 ++ 0#12)) =
      2#2 ++ 0x1C#6 ++ 0xCFFF#16 ++ (0#1 ++ 0#1 ++ 0#2 ++ 0#12) := by
    simp only [BitVec.and_append, BitVec.and_zero]; rfl
  exact congrArg BitVec.toNat h
theorem MatchesTableRow.pWrTrise (r : BitVec 6) : MatchesTableRow.Statement (.pWrTrise r) := by
  have h : (2#2 ++ 0x20#6 ++ 0x003F#16 ++ (0#10 ++ r)) &&&
      (3#2 ++ 0x3F#6 ++ 0xFFFF#16 ++ (0x3FF#10 ++ 0#6)) =
      2#2 ++ 0x20#6 ++ 0x003F#16 ++ (0#10 ++ 0#6) := by
    simp only [BitVec.and_append, BitVec.and_zero]; rfl
  exact congrArg BitVec.toNat h
theorem MatchesTableRow.pClrTimeout : MatchesTableRow.Statement .pClrTimeout := rfl
theorem MatchesTableRow.pClrPecerr : MatchesTableRow.Statement .pClrPecerr := rfl
theorem MatchesTableRow.pClrOvr : MatchesTableRow.Statement .pClrOvr := rfl
theorem MatchesTableRow.pClrAf : MatchesTableRow.Statement .pClrAf := rfl
theorem MatchesTableRow.pClrArlo : MatchesTableRow.Statement .pClrArlo := rfl
theorem MatchesTableRow.pClrBerr : MatchesTableRow.Statement .pClrBerr := rfl

end Sys2Proof.Laws
end

