-- ==== Sys2Proof/Laws/State.lean ====
section
/-! SUPPORT. What each named update does to each field of the state: one lemma a field, true by unfolding. -/

namespace Sys2Proof.Machine

variable (s : State)

/-! ### State.logEvent -/

@[simp] theorem logEvent_fsm (e : Event) : (State.logEvent e s).fsm = s.fsm := rfl
@[simp] theorem logEvent_stage (e : Event) : (State.logEvent e s).stage = s.stage := rfl
@[simp] theorem logEvent_op (e : Event) : (State.logEvent e s).op = s.op := rfl
@[simp] theorem logEvent_phase (e : Event) : (State.logEvent e s).phase = s.phase := rfl
@[simp] theorem logEvent_idx (e : Event) : (State.logEvent e s).idx = s.idx := rfl
@[simp] theorem logEvent_addr7 (e : Event) : (State.logEvent e s).addr7 = s.addr7 := rfl
@[simp] theorem logEvent_wlen (e : Event) : (State.logEvent e s).wlen = s.wlen := rfl
@[simp] theorem logEvent_rlen (e : Event) : (State.logEvent e s).rlen = s.rlen := rfl
@[simp] theorem logEvent_freq (e : Event) : (State.logEvent e s).freq = s.freq := rfl
@[simp] theorem logEvent_pull (e : Event) : (State.logEvent e s).pull = s.pull := rfl
@[simp] theorem logEvent_plan (e : Event) : (State.logEvent e s).plan = s.plan := rfl
@[simp] theorem logEvent_snap (e : Event) : (State.logEvent e s).snap = s.snap := rfl
@[simp] theorem logEvent_rdata (e : Event) : (State.logEvent e s).rdata = s.rdata := rfl
@[simp] theorem logEvent_result (e : Event) : (State.logEvent e s).result = s.result := rfl
@[simp] theorem logEvent_timings (e : Event) : (State.logEvent e s).timings = s.timings := rfl
@[simp] theorem logEvent_config (e : Event) : (State.logEvent e s).config = s.config := rfl
@[simp] theorem logEvent_constructed (e : Event) : (State.logEvent e s).constructed = s.constructed := rfl
@[simp] theorem logEvent_per (e : Event) : (State.logEvent e s).per = s.per := rfl
@[simp] theorem logEvent_host (e : Event) : (State.logEvent e s).host = s.host := rfl
@[simp] theorem logEvent_env (e : Event) : (State.logEvent e s).env = s.env := rfl
@[simp] theorem logEvent_pclkHz (e : Event) : (State.logEvent e s).pclkHz = s.pclkHz := rfl
@[simp] theorem logEvent_trace (e : Event) : (State.logEvent e s).trace = e :: s.trace := rfl

/-! ### pRead -/

@[simp] theorem pRead_fsm (r : Reg) : (pRead r s).fsm = s.fsm := rfl
@[simp] theorem pRead_stage (r : Reg) : (pRead r s).stage = s.stage := rfl
@[simp] theorem pRead_op (r : Reg) : (pRead r s).op = s.op := rfl
@[simp] theorem pRead_phase (r : Reg) : (pRead r s).phase = s.phase := rfl
@[simp] theorem pRead_idx (r : Reg) : (pRead r s).idx = s.idx := rfl
@[simp] theorem pRead_addr7 (r : Reg) : (pRead r s).addr7 = s.addr7 := rfl
@[simp] theorem pRead_wlen (r : Reg) : (pRead r s).wlen = s.wlen := rfl
@[simp] theorem pRead_rlen (r : Reg) : (pRead r s).rlen = s.rlen := rfl
@[simp] theorem pRead_freq (r : Reg) : (pRead r s).freq = s.freq := rfl
@[simp] theorem pRead_pull (r : Reg) : (pRead r s).pull = s.pull := rfl
@[simp] theorem pRead_plan (r : Reg) : (pRead r s).plan = s.plan := rfl
@[simp] theorem pRead_snap (r : Reg) : (pRead r s).snap = s.snap := rfl
@[simp] theorem pRead_rdata (r : Reg) : (pRead r s).rdata = s.readValue r := rfl
@[simp] theorem pRead_result (r : Reg) : (pRead r s).result = s.result := rfl
@[simp] theorem pRead_timings (r : Reg) : (pRead r s).timings = s.timings := rfl
@[simp] theorem pRead_config (r : Reg) : (pRead r s).config = s.config := rfl
@[simp] theorem pRead_constructed (r : Reg) : (pRead r s).constructed = s.constructed := rfl
@[simp] theorem pRead_per (r : Reg) : (pRead r s).per = s.per.afterRead r (s.readValue r) := rfl
@[simp] theorem pRead_host (r : Reg) : (pRead r s).host = s.host := rfl
@[simp] theorem pRead_env (r : Reg) : (pRead r s).env = s.env.advance := rfl
@[simp] theorem pRead_pclkHz (r : Reg) : (pRead r s).pclkHz = s.pclkHz := rfl
@[simp] theorem pRead_trace (r : Reg) : (pRead r s).trace = .port (packP 0 r.offset 0 0) (some (s.readValue r)) :: s.trace := rfl

/-! ### pWrite -/

@[simp] theorem pWrite_fsm (v : Word) : (pWrite v s).fsm = s.fsm := rfl
@[simp] theorem pWrite_stage (v : Word) : (pWrite v s).stage = s.stage := rfl
@[simp] theorem pWrite_op (v : Word) : (pWrite v s).op = s.op := rfl
@[simp] theorem pWrite_phase (v : Word) : (pWrite v s).phase = s.phase := rfl
@[simp] theorem pWrite_idx (v : Word) : (pWrite v s).idx = s.idx := rfl
@[simp] theorem pWrite_addr7 (v : Word) : (pWrite v s).addr7 = s.addr7 := rfl
@[simp] theorem pWrite_wlen (v : Word) : (pWrite v s).wlen = s.wlen := rfl
@[simp] theorem pWrite_rlen (v : Word) : (pWrite v s).rlen = s.rlen := rfl
@[simp] theorem pWrite_freq (v : Word) : (pWrite v s).freq = s.freq := rfl
@[simp] theorem pWrite_pull (v : Word) : (pWrite v s).pull = s.pull := rfl
@[simp] theorem pWrite_plan (v : Word) : (pWrite v s).plan = s.plan := rfl
@[simp] theorem pWrite_snap (v : Word) : (pWrite v s).snap = s.snap := rfl
@[simp] theorem pWrite_rdata (v : Word) : (pWrite v s).rdata = s.rdata := rfl
@[simp] theorem pWrite_result (v : Word) : (pWrite v s).result = s.result := rfl
@[simp] theorem pWrite_timings (v : Word) : (pWrite v s).timings = s.timings := rfl
@[simp] theorem pWrite_config (v : Word) : (pWrite v s).config = s.config := rfl
@[simp] theorem pWrite_constructed (v : Word) : (pWrite v s).constructed = s.constructed := rfl
@[simp] theorem pWrite_per (v : Word) : (pWrite v s).per = s.per.set .data v := rfl
@[simp] theorem pWrite_host (v : Word) : (pWrite v s).host = s.host := rfl
@[simp] theorem pWrite_env (v : Word) : (pWrite v s).env = s.env := rfl
@[simp] theorem pWrite_pclkHz (v : Word) : (pWrite v s).pclkHz = s.pclkHz := rfl
@[simp] theorem pWrite_trace (v : Word) : (pWrite v s).trace = .port (packP 1 Reg.data.offset 0xFFFF v) none :: s.trace := rfl

/-! ### pUpdate -/

@[simp] theorem pUpdate_fsm (r : Reg) (m v : Word) : (pUpdate r m v s).fsm = s.fsm := rfl
@[simp] theorem pUpdate_stage (r : Reg) (m v : Word) : (pUpdate r m v s).stage = s.stage := rfl
@[simp] theorem pUpdate_op (r : Reg) (m v : Word) : (pUpdate r m v s).op = s.op := rfl
@[simp] theorem pUpdate_phase (r : Reg) (m v : Word) : (pUpdate r m v s).phase = s.phase := rfl
@[simp] theorem pUpdate_idx (r : Reg) (m v : Word) : (pUpdate r m v s).idx = s.idx := rfl
@[simp] theorem pUpdate_addr7 (r : Reg) (m v : Word) : (pUpdate r m v s).addr7 = s.addr7 := rfl
@[simp] theorem pUpdate_wlen (r : Reg) (m v : Word) : (pUpdate r m v s).wlen = s.wlen := rfl
@[simp] theorem pUpdate_rlen (r : Reg) (m v : Word) : (pUpdate r m v s).rlen = s.rlen := rfl
@[simp] theorem pUpdate_freq (r : Reg) (m v : Word) : (pUpdate r m v s).freq = s.freq := rfl
@[simp] theorem pUpdate_pull (r : Reg) (m v : Word) : (pUpdate r m v s).pull = s.pull := rfl
@[simp] theorem pUpdate_plan (r : Reg) (m v : Word) : (pUpdate r m v s).plan = s.plan := rfl
@[simp] theorem pUpdate_snap (r : Reg) (m v : Word) : (pUpdate r m v s).snap = s.snap := rfl
@[simp] theorem pUpdate_rdata (r : Reg) (m v : Word) : (pUpdate r m v s).rdata = s.rdata := rfl
@[simp] theorem pUpdate_result (r : Reg) (m v : Word) : (pUpdate r m v s).result = s.result := rfl
@[simp] theorem pUpdate_timings (r : Reg) (m v : Word) : (pUpdate r m v s).timings = s.timings := rfl
@[simp] theorem pUpdate_config (r : Reg) (m v : Word) : (pUpdate r m v s).config = s.config := rfl
@[simp] theorem pUpdate_constructed (r : Reg) (m v : Word) : (pUpdate r m v s).constructed = s.constructed := rfl
@[simp] theorem pUpdate_per (r : Reg) (m v : Word) : (pUpdate r m v s).per = s.per.set r (underMask m (s.per.get r) v) := rfl
@[simp] theorem pUpdate_host (r : Reg) (m v : Word) : (pUpdate r m v s).host = s.host := rfl
@[simp] theorem pUpdate_env (r : Reg) (m v : Word) : (pUpdate r m v s).env = s.env := rfl
@[simp] theorem pUpdate_pclkHz (r : Reg) (m v : Word) : (pUpdate r m v s).pclkHz = s.pclkHz := rfl
@[simp] theorem pUpdate_trace (r : Reg) (m v : Word) : (pUpdate r m v s).trace = .port (packP 2 r.offset m v) none :: s.trace := rfl

/-! ### pClear -/

@[simp] theorem pClear_fsm (n : Nat) : (pClear n s).fsm = s.fsm := rfl
@[simp] theorem pClear_stage (n : Nat) : (pClear n s).stage = s.stage := rfl
@[simp] theorem pClear_op (n : Nat) : (pClear n s).op = s.op := rfl
@[simp] theorem pClear_phase (n : Nat) : (pClear n s).phase = s.phase := rfl
@[simp] theorem pClear_idx (n : Nat) : (pClear n s).idx = s.idx := rfl
@[simp] theorem pClear_addr7 (n : Nat) : (pClear n s).addr7 = s.addr7 := rfl
@[simp] theorem pClear_wlen (n : Nat) : (pClear n s).wlen = s.wlen := rfl
@[simp] theorem pClear_rlen (n : Nat) : (pClear n s).rlen = s.rlen := rfl
@[simp] theorem pClear_freq (n : Nat) : (pClear n s).freq = s.freq := rfl
@[simp] theorem pClear_pull (n : Nat) : (pClear n s).pull = s.pull := rfl
@[simp] theorem pClear_plan (n : Nat) : (pClear n s).plan = s.plan := rfl
@[simp] theorem pClear_snap (n : Nat) : (pClear n s).snap = s.snap := rfl
@[simp] theorem pClear_rdata (n : Nat) : (pClear n s).rdata = s.rdata := rfl
@[simp] theorem pClear_result (n : Nat) : (pClear n s).result = s.result := rfl
@[simp] theorem pClear_timings (n : Nat) : (pClear n s).timings = s.timings := rfl
@[simp] theorem pClear_config (n : Nat) : (pClear n s).config = s.config := rfl
@[simp] theorem pClear_constructed (n : Nat) : (pClear n s).constructed = s.constructed := rfl
@[simp] theorem pClear_per (n : Nat) : (pClear n s).per = s.per.set .stat1 (clearBit s.per.stat1 n) := rfl
@[simp] theorem pClear_host (n : Nat) : (pClear n s).host = s.host := rfl
@[simp] theorem pClear_env (n : Nat) : (pClear n s).env = s.env := rfl
@[simp] theorem pClear_pclkHz (n : Nat) : (pClear n s).pclkHz = s.pclkHz := rfl
@[simp] theorem pClear_trace (n : Nat) : (pClear n s).trace = .port (packP 3 Reg.stat1.offset (maskBit n) 0) none :: s.trace := rfl

/-! ### extStrobe -/

@[simp] theorem extStrobe_fsm (x : Strobe) : (extStrobe x s).fsm = s.fsm := rfl
@[simp] theorem extStrobe_stage (x : Strobe) : (extStrobe x s).stage = s.stage := rfl
@[simp] theorem extStrobe_op (x : Strobe) : (extStrobe x s).op = s.op := rfl
@[simp] theorem extStrobe_phase (x : Strobe) : (extStrobe x s).phase = s.phase := rfl
@[simp] theorem extStrobe_idx (x : Strobe) : (extStrobe x s).idx = s.idx := rfl
@[simp] theorem extStrobe_addr7 (x : Strobe) : (extStrobe x s).addr7 = s.addr7 := rfl
@[simp] theorem extStrobe_wlen (x : Strobe) : (extStrobe x s).wlen = s.wlen := rfl
@[simp] theorem extStrobe_rlen (x : Strobe) : (extStrobe x s).rlen = s.rlen := rfl
@[simp] theorem extStrobe_freq (x : Strobe) : (extStrobe x s).freq = s.freq := rfl
@[simp] theorem extStrobe_pull (x : Strobe) : (extStrobe x s).pull = s.pull := rfl
@[simp] theorem extStrobe_plan (x : Strobe) : (extStrobe x s).plan = s.plan := rfl
@[simp] theorem extStrobe_snap (x : Strobe) : (extStrobe x s).snap = s.snap := rfl
@[simp] theorem extStrobe_rdata (x : Strobe) : (extStrobe x s).rdata = s.rdata := rfl
@[simp] theorem extStrobe_result (x : Strobe) : (extStrobe x s).result = s.result := rfl
@[simp] theorem extStrobe_timings (x : Strobe) : (extStrobe x s).timings = s.timings := rfl
@[simp] theorem extStrobe_config (x : Strobe) : (extStrobe x s).config = s.config := rfl
@[simp] theorem extStrobe_constructed (x : Strobe) : (extStrobe x s).constructed = s.constructed := rfl
@[simp] theorem extStrobe_per (x : Strobe) : (extStrobe x s).per = s.per := rfl
@[simp] theorem extStrobe_host (x : Strobe) : (extStrobe x s).host = s.host := rfl
@[simp] theorem extStrobe_env (x : Strobe) : (extStrobe x s).env = s.env := rfl
@[simp] theorem extStrobe_pclkHz (x : Strobe) : (extStrobe x s).pclkHz = s.pclkHz := rfl
@[simp] theorem extStrobe_trace (x : Strobe) : (extStrobe x s).trace = .strobe x :: s.trace := rfl

/-! ### extReset -/

@[simp] theorem extReset_fsm : (extReset s).fsm = s.fsm := rfl
@[simp] theorem extReset_stage : (extReset s).stage = s.stage := rfl
@[simp] theorem extReset_op : (extReset s).op = s.op := rfl
@[simp] theorem extReset_phase : (extReset s).phase = s.phase := rfl
@[simp] theorem extReset_idx : (extReset s).idx = s.idx := rfl
@[simp] theorem extReset_addr7 : (extReset s).addr7 = s.addr7 := rfl
@[simp] theorem extReset_wlen : (extReset s).wlen = s.wlen := rfl
@[simp] theorem extReset_rlen : (extReset s).rlen = s.rlen := rfl
@[simp] theorem extReset_freq : (extReset s).freq = s.freq := rfl
@[simp] theorem extReset_pull : (extReset s).pull = s.pull := rfl
@[simp] theorem extReset_plan : (extReset s).plan = s.plan := rfl
@[simp] theorem extReset_snap : (extReset s).snap = s.snap := rfl
@[simp] theorem extReset_rdata : (extReset s).rdata = s.rdata := rfl
@[simp] theorem extReset_result : (extReset s).result = s.result := rfl
@[simp] theorem extReset_timings : (extReset s).timings = s.timings := rfl
@[simp] theorem extReset_config : (extReset s).config = s.config := rfl
@[simp] theorem extReset_constructed : (extReset s).constructed = s.constructed := rfl
@[simp] theorem extReset_per : (extReset s).per = Periph.afterExtReset s.env := rfl
@[simp] theorem extReset_host : (extReset s).host = s.host := rfl
@[simp] theorem extReset_env : (extReset s).env = s.env.advanceBy 8 := rfl
@[simp] theorem extReset_pclkHz : (extReset s).pclkHz = s.pclkHz := rfl
@[simp] theorem extReset_trace : (extReset s).trace = .strobe .extReset :: s.trace := rfl

/-! ### complete -/

@[simp] theorem complete_fsm (r : Result) : (complete r s).fsm = .idle := rfl
@[simp] theorem complete_stage (r : Result) : (complete r s).stage = s.stage := rfl
@[simp] theorem complete_op (r : Result) : (complete r s).op = s.op := rfl
@[simp] theorem complete_phase (r : Result) : (complete r s).phase = s.phase := rfl
@[simp] theorem complete_idx (r : Result) : (complete r s).idx = s.idx := rfl
@[simp] theorem complete_addr7 (r : Result) : (complete r s).addr7 = s.addr7 := rfl
@[simp] theorem complete_wlen (r : Result) : (complete r s).wlen = s.wlen := rfl
@[simp] theorem complete_rlen (r : Result) : (complete r s).rlen = s.rlen := rfl
@[simp] theorem complete_freq (r : Result) : (complete r s).freq = s.freq := rfl
@[simp] theorem complete_pull (r : Result) : (complete r s).pull = s.pull := rfl
@[simp] theorem complete_plan (r : Result) : (complete r s).plan = s.plan := rfl
@[simp] theorem complete_snap (r : Result) : (complete r s).snap = s.snap := rfl
@[simp] theorem complete_rdata (r : Result) : (complete r s).rdata = s.rdata := rfl
@[simp] theorem complete_result (r : Result) : (complete r s).result = some r := rfl
@[simp] theorem complete_timings (r : Result) : (complete r s).timings = s.timings := rfl
@[simp] theorem complete_config (r : Result) : (complete r s).config = s.config := rfl
@[simp] theorem complete_constructed (r : Result) : (complete r s).constructed = s.constructed := rfl
@[simp] theorem complete_per (r : Result) : (complete r s).per = s.per := rfl
@[simp] theorem complete_host (r : Result) : (complete r s).host = s.host := rfl
@[simp] theorem complete_env (r : Result) : (complete r s).env = s.env := rfl
@[simp] theorem complete_pclkHz (r : Result) : (complete r s).pclkHz = s.pclkHz := rfl
@[simp] theorem complete_trace (r : Result) : (complete r s).trace = s.trace := rfl

/-! ### raiseFatal -/

@[simp] theorem raiseFatal_fsm (r : FatalReason) : (raiseFatal r s).fsm = .halt r := rfl
@[simp] theorem raiseFatal_stage (r : FatalReason) : (raiseFatal r s).stage = s.stage := rfl
@[simp] theorem raiseFatal_op (r : FatalReason) : (raiseFatal r s).op = s.op := rfl
@[simp] theorem raiseFatal_phase (r : FatalReason) : (raiseFatal r s).phase = s.phase := rfl
@[simp] theorem raiseFatal_idx (r : FatalReason) : (raiseFatal r s).idx = s.idx := rfl
@[simp] theorem raiseFatal_addr7 (r : FatalReason) : (raiseFatal r s).addr7 = s.addr7 := rfl
@[simp] theorem raiseFatal_wlen (r : FatalReason) : (raiseFatal r s).wlen = s.wlen := rfl
@[simp] theorem raiseFatal_rlen (r : FatalReason) : (raiseFatal r s).rlen = s.rlen := rfl
@[simp] theorem raiseFatal_freq (r : FatalReason) : (raiseFatal r s).freq = s.freq := rfl
@[simp] theorem raiseFatal_pull (r : FatalReason) : (raiseFatal r s).pull = s.pull := rfl
@[simp] theorem raiseFatal_plan (r : FatalReason) : (raiseFatal r s).plan = s.plan := rfl
@[simp] theorem raiseFatal_snap (r : FatalReason) : (raiseFatal r s).snap = s.snap := rfl
@[simp] theorem raiseFatal_rdata (r : FatalReason) : (raiseFatal r s).rdata = s.rdata := rfl
@[simp] theorem raiseFatal_result (r : FatalReason) : (raiseFatal r s).result = s.result := rfl
@[simp] theorem raiseFatal_timings (r : FatalReason) : (raiseFatal r s).timings = s.timings := rfl
@[simp] theorem raiseFatal_config (r : FatalReason) : (raiseFatal r s).config = s.config := rfl
@[simp] theorem raiseFatal_constructed (r : FatalReason) : (raiseFatal r s).constructed = s.constructed := rfl
@[simp] theorem raiseFatal_per (r : FatalReason) : (raiseFatal r s).per = s.per := rfl
@[simp] theorem raiseFatal_host (r : FatalReason) : (raiseFatal r s).host = s.host := rfl
@[simp] theorem raiseFatal_env (r : FatalReason) : (raiseFatal r s).env = s.env := rfl
@[simp] theorem raiseFatal_pclkHz (r : FatalReason) : (raiseFatal r s).pclkHz = s.pclkHz := rfl
@[simp] theorem raiseFatal_trace (r : FatalReason) : (raiseFatal r s).trace = s.trace := rfl

/-! ### latchTransfer -/

@[simp] theorem latchTransfer_fsm (op : Op) (a : BitVec 7) (w n : Nat) : (latchTransfer op a w n s).fsm = s.fsm := rfl
@[simp] theorem latchTransfer_stage (op : Op) (a : BitVec 7) (w n : Nat) : (latchTransfer op a w n s).stage = s.stage := rfl
@[simp] theorem latchTransfer_op (op : Op) (a : BitVec 7) (w n : Nat) : (latchTransfer op a w n s).op = op := rfl
@[simp] theorem latchTransfer_phase (op : Op) (a : BitVec 7) (w n : Nat) : (latchTransfer op a w n s).phase = s.phase := rfl
@[simp] theorem latchTransfer_idx (op : Op) (a : BitVec 7) (w n : Nat) : (latchTransfer op a w n s).idx = s.idx := rfl
@[simp] theorem latchTransfer_addr7 (op : Op) (a : BitVec 7) (w n : Nat) : (latchTransfer op a w n s).addr7 = a := rfl
@[simp] theorem latchTransfer_wlen (op : Op) (a : BitVec 7) (w n : Nat) : (latchTransfer op a w n s).wlen = w := rfl
@[simp] theorem latchTransfer_rlen (op : Op) (a : BitVec 7) (w n : Nat) : (latchTransfer op a w n s).rlen = n := rfl
@[simp] theorem latchTransfer_freq (op : Op) (a : BitVec 7) (w n : Nat) : (latchTransfer op a w n s).freq = s.freq := rfl
@[simp] theorem latchTransfer_pull (op : Op) (a : BitVec 7) (w n : Nat) : (latchTransfer op a w n s).pull = s.pull := rfl
@[simp] theorem latchTransfer_plan (op : Op) (a : BitVec 7) (w n : Nat) : (latchTransfer op a w n s).plan = s.plan := rfl
@[simp] theorem latchTransfer_snap (op : Op) (a : BitVec 7) (w n : Nat) : (latchTransfer op a w n s).snap = s.snap := rfl
@[simp] theorem latchTransfer_rdata (op : Op) (a : BitVec 7) (w n : Nat) : (latchTransfer op a w n s).rdata = s.rdata := rfl
@[simp] theorem latchTransfer_result (op : Op) (a : BitVec 7) (w n : Nat) : (latchTransfer op a w n s).result = s.result := rfl
@[simp] theorem latchTransfer_timings (op : Op) (a : BitVec 7) (w n : Nat) : (latchTransfer op a w n s).timings = s.timings := rfl
@[simp] theorem latchTransfer_config (op : Op) (a : BitVec 7) (w n : Nat) : (latchTransfer op a w n s).config = s.config := rfl
@[simp] theorem latchTransfer_constructed (op : Op) (a : BitVec 7) (w n : Nat) : (latchTransfer op a w n s).constructed = s.constructed := rfl
@[simp] theorem latchTransfer_per (op : Op) (a : BitVec 7) (w n : Nat) : (latchTransfer op a w n s).per = s.per := rfl
@[simp] theorem latchTransfer_host (op : Op) (a : BitVec 7) (w n : Nat) : (latchTransfer op a w n s).host = s.host := rfl
@[simp] theorem latchTransfer_env (op : Op) (a : BitVec 7) (w n : Nat) : (latchTransfer op a w n s).env = s.env := rfl
@[simp] theorem latchTransfer_pclkHz (op : Op) (a : BitVec 7) (w n : Nat) : (latchTransfer op a w n s).pclkHz = s.pclkHz := rfl
@[simp] theorem latchTransfer_trace (op : Op) (a : BitVec 7) (w n : Nat) : (latchTransfer op a w n s).trace = s.trace := rfl

/-! ### startPhase -/

@[simp] theorem startPhase_fsm (p : Phase) : (startPhase p s).fsm = .start := rfl
@[simp] theorem startPhase_stage (p : Phase) : (startPhase p s).stage = .request := rfl
@[simp] theorem startPhase_op (p : Phase) : (startPhase p s).op = s.op := rfl
@[simp] theorem startPhase_phase (p : Phase) : (startPhase p s).phase = p := rfl
@[simp] theorem startPhase_idx (p : Phase) : (startPhase p s).idx = 0 := rfl
@[simp] theorem startPhase_addr7 (p : Phase) : (startPhase p s).addr7 = s.addr7 := rfl
@[simp] theorem startPhase_wlen (p : Phase) : (startPhase p s).wlen = s.wlen := rfl
@[simp] theorem startPhase_rlen (p : Phase) : (startPhase p s).rlen = s.rlen := rfl
@[simp] theorem startPhase_freq (p : Phase) : (startPhase p s).freq = s.freq := rfl
@[simp] theorem startPhase_pull (p : Phase) : (startPhase p s).pull = s.pull := rfl
@[simp] theorem startPhase_plan (p : Phase) : (startPhase p s).plan = s.plan := rfl
@[simp] theorem startPhase_snap (p : Phase) : (startPhase p s).snap = s.snap := rfl
@[simp] theorem startPhase_rdata (p : Phase) : (startPhase p s).rdata = s.rdata := rfl
@[simp] theorem startPhase_result (p : Phase) : (startPhase p s).result = s.result := rfl
@[simp] theorem startPhase_timings (p : Phase) : (startPhase p s).timings = s.timings := rfl
@[simp] theorem startPhase_config (p : Phase) : (startPhase p s).config = s.config := rfl
@[simp] theorem startPhase_constructed (p : Phase) : (startPhase p s).constructed = s.constructed := rfl
@[simp] theorem startPhase_per (p : Phase) : (startPhase p s).per = s.per := rfl
@[simp] theorem startPhase_host (p : Phase) : (startPhase p s).host = s.host := rfl
@[simp] theorem startPhase_env (p : Phase) : (startPhase p s).env = s.env := rfl
@[simp] theorem startPhase_pclkHz (p : Phase) : (startPhase p s).pclkHz = s.pclkHz := rfl
@[simp] theorem startPhase_trace (p : Phase) : (startPhase p s).trace = s.trace := rfl

/-! ### latchConfig -/

@[simp] theorem latchConfig_fsm (op : Op) (f : Nat) (pc : PinConfig) (k : CfgStep) : (latchConfig op f pc k s).fsm = .cfg k := rfl
@[simp] theorem latchConfig_stage (op : Op) (f : Nat) (pc : PinConfig) (k : CfgStep) : (latchConfig op f pc k s).stage = s.stage := rfl
@[simp] theorem latchConfig_op (op : Op) (f : Nat) (pc : PinConfig) (k : CfgStep) : (latchConfig op f pc k s).op = op := rfl
@[simp] theorem latchConfig_phase (op : Op) (f : Nat) (pc : PinConfig) (k : CfgStep) : (latchConfig op f pc k s).phase = s.phase := rfl
@[simp] theorem latchConfig_idx (op : Op) (f : Nat) (pc : PinConfig) (k : CfgStep) : (latchConfig op f pc k s).idx = s.idx := rfl
@[simp] theorem latchConfig_addr7 (op : Op) (f : Nat) (pc : PinConfig) (k : CfgStep) : (latchConfig op f pc k s).addr7 = s.addr7 := rfl
@[simp] theorem latchConfig_wlen (op : Op) (f : Nat) (pc : PinConfig) (k : CfgStep) : (latchConfig op f pc k s).wlen = s.wlen := rfl
@[simp] theorem latchConfig_rlen (op : Op) (f : Nat) (pc : PinConfig) (k : CfgStep) : (latchConfig op f pc k s).rlen = s.rlen := rfl
@[simp] theorem latchConfig_freq (op : Op) (f : Nat) (pc : PinConfig) (k : CfgStep) : (latchConfig op f pc k s).freq = f := rfl
@[simp] theorem latchConfig_pull (op : Op) (f : Nat) (pc : PinConfig) (k : CfgStep) : (latchConfig op f pc k s).pull = pc := rfl
@[simp] theorem latchConfig_plan (op : Op) (f : Nat) (pc : PinConfig) (k : CfgStep) : (latchConfig op f pc k s).plan = s.plan := rfl
@[simp] theorem latchConfig_snap (op : Op) (f : Nat) (pc : PinConfig) (k : CfgStep) : (latchConfig op f pc k s).snap = s.snap := rfl
@[simp] theorem latchConfig_rdata (op : Op) (f : Nat) (pc : PinConfig) (k : CfgStep) : (latchConfig op f pc k s).rdata = s.rdata := rfl
@[simp] theorem latchConfig_result (op : Op) (f : Nat) (pc : PinConfig) (k : CfgStep) : (latchConfig op f pc k s).result = s.result := rfl
@[simp] theorem latchConfig_timings (op : Op) (f : Nat) (pc : PinConfig) (k : CfgStep) : (latchConfig op f pc k s).timings = s.timings := rfl
@[simp] theorem latchConfig_config (op : Op) (f : Nat) (pc : PinConfig) (k : CfgStep) : (latchConfig op f pc k s).config = s.config := rfl
@[simp] theorem latchConfig_constructed (op : Op) (f : Nat) (pc : PinConfig) (k : CfgStep) : (latchConfig op f pc k s).constructed = s.constructed := rfl
@[simp] theorem latchConfig_per (op : Op) (f : Nat) (pc : PinConfig) (k : CfgStep) : (latchConfig op f pc k s).per = s.per := rfl
@[simp] theorem latchConfig_host (op : Op) (f : Nat) (pc : PinConfig) (k : CfgStep) : (latchConfig op f pc k s).host = s.host := rfl
@[simp] theorem latchConfig_env (op : Op) (f : Nat) (pc : PinConfig) (k : CfgStep) : (latchConfig op f pc k s).env = s.env := rfl
@[simp] theorem latchConfig_pclkHz (op : Op) (f : Nat) (pc : PinConfig) (k : CfgStep) : (latchConfig op f pc k s).pclkHz = s.pclkHz := rfl
@[simp] theorem latchConfig_trace (op : Op) (f : Nat) (pc : PinConfig) (k : CfgStep) : (latchConfig op f pc k s).trace = s.trace := rfl

/-! ### goPoll -/

@[simp] theorem goPoll_fsm (f : Fsm) : (goPoll f s).fsm = f := rfl
@[simp] theorem goPoll_stage (f : Fsm) : (goPoll f s).stage = .monitor := rfl
@[simp] theorem goPoll_op (f : Fsm) : (goPoll f s).op = s.op := rfl
@[simp] theorem goPoll_phase (f : Fsm) : (goPoll f s).phase = s.phase := rfl
@[simp] theorem goPoll_idx (f : Fsm) : (goPoll f s).idx = s.idx := rfl
@[simp] theorem goPoll_addr7 (f : Fsm) : (goPoll f s).addr7 = s.addr7 := rfl
@[simp] theorem goPoll_wlen (f : Fsm) : (goPoll f s).wlen = s.wlen := rfl
@[simp] theorem goPoll_rlen (f : Fsm) : (goPoll f s).rlen = s.rlen := rfl
@[simp] theorem goPoll_freq (f : Fsm) : (goPoll f s).freq = s.freq := rfl
@[simp] theorem goPoll_pull (f : Fsm) : (goPoll f s).pull = s.pull := rfl
@[simp] theorem goPoll_plan (f : Fsm) : (goPoll f s).plan = s.plan := rfl
@[simp] theorem goPoll_snap (f : Fsm) : (goPoll f s).snap = s.snap := rfl
@[simp] theorem goPoll_rdata (f : Fsm) : (goPoll f s).rdata = s.rdata := rfl
@[simp] theorem goPoll_result (f : Fsm) : (goPoll f s).result = s.result := rfl
@[simp] theorem goPoll_timings (f : Fsm) : (goPoll f s).timings = s.timings := rfl
@[simp] theorem goPoll_config (f : Fsm) : (goPoll f s).config = s.config := rfl
@[simp] theorem goPoll_constructed (f : Fsm) : (goPoll f s).constructed = s.constructed := rfl
@[simp] theorem goPoll_per (f : Fsm) : (goPoll f s).per = s.per := rfl
@[simp] theorem goPoll_host (f : Fsm) : (goPoll f s).host = s.host := rfl
@[simp] theorem goPoll_env (f : Fsm) : (goPoll f s).env = s.env := rfl
@[simp] theorem goPoll_pclkHz (f : Fsm) : (goPoll f s).pclkHz = s.pclkHz := rfl
@[simp] theorem goPoll_trace (f : Fsm) : (goPoll f s).trace = s.trace := rfl

/-! ### goStage -/

@[simp] theorem goStage_fsm (g : Stage) : (goStage g s).fsm = s.fsm := rfl
@[simp] theorem goStage_stage (g : Stage) : (goStage g s).stage = g := rfl
@[simp] theorem goStage_op (g : Stage) : (goStage g s).op = s.op := rfl
@[simp] theorem goStage_phase (g : Stage) : (goStage g s).phase = s.phase := rfl
@[simp] theorem goStage_idx (g : Stage) : (goStage g s).idx = s.idx := rfl
@[simp] theorem goStage_addr7 (g : Stage) : (goStage g s).addr7 = s.addr7 := rfl
@[simp] theorem goStage_wlen (g : Stage) : (goStage g s).wlen = s.wlen := rfl
@[simp] theorem goStage_rlen (g : Stage) : (goStage g s).rlen = s.rlen := rfl
@[simp] theorem goStage_freq (g : Stage) : (goStage g s).freq = s.freq := rfl
@[simp] theorem goStage_pull (g : Stage) : (goStage g s).pull = s.pull := rfl
@[simp] theorem goStage_plan (g : Stage) : (goStage g s).plan = s.plan := rfl
@[simp] theorem goStage_snap (g : Stage) : (goStage g s).snap = s.snap := rfl
@[simp] theorem goStage_rdata (g : Stage) : (goStage g s).rdata = s.rdata := rfl
@[simp] theorem goStage_result (g : Stage) : (goStage g s).result = s.result := rfl
@[simp] theorem goStage_timings (g : Stage) : (goStage g s).timings = s.timings := rfl
@[simp] theorem goStage_config (g : Stage) : (goStage g s).config = s.config := rfl
@[simp] theorem goStage_constructed (g : Stage) : (goStage g s).constructed = s.constructed := rfl
@[simp] theorem goStage_per (g : Stage) : (goStage g s).per = s.per := rfl
@[simp] theorem goStage_host (g : Stage) : (goStage g s).host = s.host := rfl
@[simp] theorem goStage_env (g : Stage) : (goStage g s).env = s.env := rfl
@[simp] theorem goStage_pclkHz (g : Stage) : (goStage g s).pclkHz = s.pclkHz := rfl
@[simp] theorem goStage_trace (g : Stage) : (goStage g s).trace = s.trace := rfl

/-! ### storeReceived -/

@[simp] theorem storeReceived_fsm : (storeReceived s).fsm = s.fsm := rfl
@[simp] theorem storeReceived_stage : (storeReceived s).stage = s.stage := rfl
@[simp] theorem storeReceived_op : (storeReceived s).op = s.op := rfl
@[simp] theorem storeReceived_phase : (storeReceived s).phase = s.phase := rfl
@[simp] theorem storeReceived_idx : (storeReceived s).idx = s.idx := rfl
@[simp] theorem storeReceived_addr7 : (storeReceived s).addr7 = s.addr7 := rfl
@[simp] theorem storeReceived_wlen : (storeReceived s).wlen = s.wlen := rfl
@[simp] theorem storeReceived_rlen : (storeReceived s).rlen = s.rlen := rfl
@[simp] theorem storeReceived_freq : (storeReceived s).freq = s.freq := rfl
@[simp] theorem storeReceived_pull : (storeReceived s).pull = s.pull := rfl
@[simp] theorem storeReceived_plan : (storeReceived s).plan = s.plan := rfl
@[simp] theorem storeReceived_snap : (storeReceived s).snap = s.snap := rfl
@[simp] theorem storeReceived_rdata : (storeReceived s).rdata = s.rdata := rfl
@[simp] theorem storeReceived_result : (storeReceived s).result = s.result := rfl
@[simp] theorem storeReceived_timings : (storeReceived s).timings = s.timings := rfl
@[simp] theorem storeReceived_config : (storeReceived s).config = s.config := rfl
@[simp] theorem storeReceived_constructed : (storeReceived s).constructed = s.constructed := rfl
@[simp] theorem storeReceived_per : (storeReceived s).per = s.per := rfl
@[simp] theorem storeReceived_host : (storeReceived s).host = { s.host with rxbuf := s.host.rxbuf.write s.idx (dataByte s.rdata) } := rfl
@[simp] theorem storeReceived_env : (storeReceived s).env = s.env := rfl
@[simp] theorem storeReceived_pclkHz : (storeReceived s).pclkHz = s.pclkHz := rfl
@[simp] theorem storeReceived_trace : (storeReceived s).trace = s.trace := rfl

/-! ### finishInit -/

@[simp] theorem finishInit_fsm : (finishInit s).fsm = .idle := rfl
@[simp] theorem finishInit_stage : (finishInit s).stage = s.stage := rfl
@[simp] theorem finishInit_op : (finishInit s).op = s.op := rfl
@[simp] theorem finishInit_phase : (finishInit s).phase = s.phase := rfl
@[simp] theorem finishInit_idx : (finishInit s).idx = s.idx := rfl
@[simp] theorem finishInit_addr7 : (finishInit s).addr7 = s.addr7 := rfl
@[simp] theorem finishInit_wlen : (finishInit s).wlen = s.wlen := rfl
@[simp] theorem finishInit_rlen : (finishInit s).rlen = s.rlen := rfl
@[simp] theorem finishInit_freq : (finishInit s).freq = s.freq := rfl
@[simp] theorem finishInit_pull : (finishInit s).pull = s.pull := rfl
@[simp] theorem finishInit_plan : (finishInit s).plan = s.plan := rfl
@[simp] theorem finishInit_snap : (finishInit s).snap = s.snap := rfl
@[simp] theorem finishInit_rdata : (finishInit s).rdata = s.rdata := rfl
@[simp] theorem finishInit_result : (finishInit s).result = some .ok := rfl
@[simp] theorem finishInit_timings : (finishInit s).timings = some s.plan := rfl
@[simp] theorem finishInit_config : (finishInit s).config = some s.pull := rfl
@[simp] theorem finishInit_constructed : (finishInit s).constructed = true := rfl
@[simp] theorem finishInit_per : (finishInit s).per = s.per := rfl
@[simp] theorem finishInit_host : (finishInit s).host = s.host := rfl
@[simp] theorem finishInit_env : (finishInit s).env = s.env := rfl
@[simp] theorem finishInit_pclkHz : (finishInit s).pclkHz = s.pclkHz := rfl
@[simp] theorem finishInit_trace : (finishInit s).trace = s.trace := rfl

/-! ### finishReconf -/

@[simp] theorem finishReconf_fsm : (finishReconf s).fsm = .idle := rfl
@[simp] theorem finishReconf_stage : (finishReconf s).stage = s.stage := rfl
@[simp] theorem finishReconf_op : (finishReconf s).op = s.op := rfl
@[simp] theorem finishReconf_phase : (finishReconf s).phase = s.phase := rfl
@[simp] theorem finishReconf_idx : (finishReconf s).idx = s.idx := rfl
@[simp] theorem finishReconf_addr7 : (finishReconf s).addr7 = s.addr7 := rfl
@[simp] theorem finishReconf_wlen : (finishReconf s).wlen = s.wlen := rfl
@[simp] theorem finishReconf_rlen : (finishReconf s).rlen = s.rlen := rfl
@[simp] theorem finishReconf_freq : (finishReconf s).freq = s.freq := rfl
@[simp] theorem finishReconf_pull : (finishReconf s).pull = s.pull := rfl
@[simp] theorem finishReconf_plan : (finishReconf s).plan = s.plan := rfl
@[simp] theorem finishReconf_snap : (finishReconf s).snap = s.snap := rfl
@[simp] theorem finishReconf_rdata : (finishReconf s).rdata = s.rdata := rfl
@[simp] theorem finishReconf_result : (finishReconf s).result = some .ok := rfl
@[simp] theorem finishReconf_timings : (finishReconf s).timings = some s.plan := rfl
@[simp] theorem finishReconf_config : (finishReconf s).config = s.config := rfl
@[simp] theorem finishReconf_constructed : (finishReconf s).constructed = s.constructed := rfl
@[simp] theorem finishReconf_per : (finishReconf s).per = s.per := rfl
@[simp] theorem finishReconf_host : (finishReconf s).host = s.host := rfl
@[simp] theorem finishReconf_env : (finishReconf s).env = s.env := rfl
@[simp] theorem finishReconf_pclkHz : (finishReconf s).pclkHz = s.pclkHz := rfl
@[simp] theorem finishReconf_trace : (finishReconf s).trace = s.trace := rfl

/-! ### withInputs -/

@[simp] theorem withInputs_fsm (xs : List Input) : (withInputs xs s).fsm = s.fsm := rfl
@[simp] theorem withInputs_stage (xs : List Input) : (withInputs xs s).stage = s.stage := rfl
@[simp] theorem withInputs_op (xs : List Input) : (withInputs xs s).op = s.op := rfl
@[simp] theorem withInputs_phase (xs : List Input) : (withInputs xs s).phase = s.phase := rfl
@[simp] theorem withInputs_idx (xs : List Input) : (withInputs xs s).idx = s.idx := rfl
@[simp] theorem withInputs_addr7 (xs : List Input) : (withInputs xs s).addr7 = s.addr7 := rfl
@[simp] theorem withInputs_wlen (xs : List Input) : (withInputs xs s).wlen = s.wlen := rfl
@[simp] theorem withInputs_rlen (xs : List Input) : (withInputs xs s).rlen = s.rlen := rfl
@[simp] theorem withInputs_freq (xs : List Input) : (withInputs xs s).freq = s.freq := rfl
@[simp] theorem withInputs_pull (xs : List Input) : (withInputs xs s).pull = s.pull := rfl
@[simp] theorem withInputs_plan (xs : List Input) : (withInputs xs s).plan = s.plan := rfl
@[simp] theorem withInputs_snap (xs : List Input) : (withInputs xs s).snap = s.snap := rfl
@[simp] theorem withInputs_rdata (xs : List Input) : (withInputs xs s).rdata = s.rdata := rfl
@[simp] theorem withInputs_result (xs : List Input) : (withInputs xs s).result = s.result := rfl
@[simp] theorem withInputs_timings (xs : List Input) : (withInputs xs s).timings = s.timings := rfl
@[simp] theorem withInputs_config (xs : List Input) : (withInputs xs s).config = s.config := rfl
@[simp] theorem withInputs_constructed (xs : List Input) : (withInputs xs s).constructed = s.constructed := rfl
@[simp] theorem withInputs_per (xs : List Input) : (withInputs xs s).per = s.per := rfl
@[simp] theorem withInputs_host (xs : List Input) : (withInputs xs s).host = { s.host with inputs := xs } := rfl
@[simp] theorem withInputs_env (xs : List Input) : (withInputs xs s).env = s.env := rfl
@[simp] theorem withInputs_pclkHz (xs : List Input) : (withInputs xs s).pclkHz = s.pclkHz := rfl
@[simp] theorem withInputs_trace (xs : List Input) : (withInputs xs s).trace = s.trace := rfl

/-! ### resetBlock -/

@[simp] theorem resetBlock_fsm (p : Periph) : (resetBlock p s).fsm = State.reset.fsm := rfl
@[simp] theorem resetBlock_stage (p : Periph) : (resetBlock p s).stage = State.reset.stage := rfl
@[simp] theorem resetBlock_op (p : Periph) : (resetBlock p s).op = State.reset.op := rfl
@[simp] theorem resetBlock_phase (p : Periph) : (resetBlock p s).phase = State.reset.phase := rfl
@[simp] theorem resetBlock_idx (p : Periph) : (resetBlock p s).idx = State.reset.idx := rfl
@[simp] theorem resetBlock_addr7 (p : Periph) : (resetBlock p s).addr7 = State.reset.addr7 := rfl
@[simp] theorem resetBlock_wlen (p : Periph) : (resetBlock p s).wlen = State.reset.wlen := rfl
@[simp] theorem resetBlock_rlen (p : Periph) : (resetBlock p s).rlen = State.reset.rlen := rfl
@[simp] theorem resetBlock_freq (p : Periph) : (resetBlock p s).freq = State.reset.freq := rfl
@[simp] theorem resetBlock_pull (p : Periph) : (resetBlock p s).pull = State.reset.pull := rfl
@[simp] theorem resetBlock_plan (p : Periph) : (resetBlock p s).plan = State.reset.plan := rfl
@[simp] theorem resetBlock_snap (p : Periph) : (resetBlock p s).snap = State.reset.snap := rfl
@[simp] theorem resetBlock_rdata (p : Periph) : (resetBlock p s).rdata = State.reset.rdata := rfl
@[simp] theorem resetBlock_result (p : Periph) : (resetBlock p s).result = State.reset.result := rfl
@[simp] theorem resetBlock_timings (p : Periph) : (resetBlock p s).timings = State.reset.timings := rfl
@[simp] theorem resetBlock_config (p : Periph) : (resetBlock p s).config = State.reset.config := rfl
@[simp] theorem resetBlock_constructed (p : Periph) : (resetBlock p s).constructed = State.reset.constructed := rfl
@[simp] theorem resetBlock_per (p : Periph) : (resetBlock p s).per = p := rfl
@[simp] theorem resetBlock_host (p : Periph) : (resetBlock p s).host = s.host := rfl
@[simp] theorem resetBlock_env (p : Periph) : (resetBlock p s).env = s.env := rfl
@[simp] theorem resetBlock_pclkHz (p : Periph) : (resetBlock p s).pclkHz = s.pclkHz := rfl
@[simp] theorem resetBlock_trace (p : Periph) : (resetBlock p s).trace = State.reset.trace := rfl

/-! ### storeSnap -/

@[simp] theorem storeSnap_fsm : (storeSnap s).fsm = s.fsm := rfl
@[simp] theorem storeSnap_stage : (storeSnap s).stage = s.stage := rfl
@[simp] theorem storeSnap_op : (storeSnap s).op = s.op := rfl
@[simp] theorem storeSnap_phase : (storeSnap s).phase = s.phase := rfl
@[simp] theorem storeSnap_idx : (storeSnap s).idx = s.idx := rfl
@[simp] theorem storeSnap_addr7 : (storeSnap s).addr7 = s.addr7 := rfl
@[simp] theorem storeSnap_wlen : (storeSnap s).wlen = s.wlen := rfl
@[simp] theorem storeSnap_rlen : (storeSnap s).rlen = s.rlen := rfl
@[simp] theorem storeSnap_freq : (storeSnap s).freq = s.freq := rfl
@[simp] theorem storeSnap_pull : (storeSnap s).pull = s.pull := rfl
@[simp] theorem storeSnap_plan : (storeSnap s).plan = s.plan := rfl
@[simp] theorem storeSnap_snap : (storeSnap s).snap = s.rdata := rfl
@[simp] theorem storeSnap_rdata : (storeSnap s).rdata = s.rdata := rfl
@[simp] theorem storeSnap_result : (storeSnap s).result = s.result := rfl
@[simp] theorem storeSnap_timings : (storeSnap s).timings = s.timings := rfl
@[simp] theorem storeSnap_config : (storeSnap s).config = s.config := rfl
@[simp] theorem storeSnap_constructed : (storeSnap s).constructed = s.constructed := rfl
@[simp] theorem storeSnap_per : (storeSnap s).per = s.per := rfl
@[simp] theorem storeSnap_host : (storeSnap s).host = s.host := rfl
@[simp] theorem storeSnap_env : (storeSnap s).env = s.env := rfl
@[simp] theorem storeSnap_pclkHz : (storeSnap s).pclkHz = s.pclkHz := rfl
@[simp] theorem storeSnap_trace : (storeSnap s).trace = s.trace := rfl

/-! ### environmentActs -/

@[simp] theorem environmentActs_fsm (r : Reg) (v : Word) : (environmentActs r v s).fsm = s.fsm := rfl
@[simp] theorem environmentActs_stage (r : Reg) (v : Word) : (environmentActs r v s).stage = s.stage := rfl
@[simp] theorem environmentActs_op (r : Reg) (v : Word) : (environmentActs r v s).op = s.op := rfl
@[simp] theorem environmentActs_phase (r : Reg) (v : Word) : (environmentActs r v s).phase = s.phase := rfl
@[simp] theorem environmentActs_idx (r : Reg) (v : Word) : (environmentActs r v s).idx = s.idx := rfl
@[simp] theorem environmentActs_addr7 (r : Reg) (v : Word) : (environmentActs r v s).addr7 = s.addr7 := rfl
@[simp] theorem environmentActs_wlen (r : Reg) (v : Word) : (environmentActs r v s).wlen = s.wlen := rfl
@[simp] theorem environmentActs_rlen (r : Reg) (v : Word) : (environmentActs r v s).rlen = s.rlen := rfl
@[simp] theorem environmentActs_freq (r : Reg) (v : Word) : (environmentActs r v s).freq = s.freq := rfl
@[simp] theorem environmentActs_pull (r : Reg) (v : Word) : (environmentActs r v s).pull = s.pull := rfl
@[simp] theorem environmentActs_plan (r : Reg) (v : Word) : (environmentActs r v s).plan = s.plan := rfl
@[simp] theorem environmentActs_snap (r : Reg) (v : Word) : (environmentActs r v s).snap = s.snap := rfl
@[simp] theorem environmentActs_rdata (r : Reg) (v : Word) : (environmentActs r v s).rdata = s.rdata := rfl
@[simp] theorem environmentActs_result (r : Reg) (v : Word) : (environmentActs r v s).result = s.result := rfl
@[simp] theorem environmentActs_timings (r : Reg) (v : Word) : (environmentActs r v s).timings = s.timings := rfl
@[simp] theorem environmentActs_config (r : Reg) (v : Word) : (environmentActs r v s).config = s.config := rfl
@[simp] theorem environmentActs_constructed (r : Reg) (v : Word) : (environmentActs r v s).constructed = s.constructed := rfl
@[simp] theorem environmentActs_per (r : Reg) (v : Word) : (environmentActs r v s).per = s.per.set r (readAnswer r (s.per.get r) v) := rfl
@[simp] theorem environmentActs_host (r : Reg) (v : Word) : (environmentActs r v s).host = s.host := rfl
@[simp] theorem environmentActs_env (r : Reg) (v : Word) : (environmentActs r v s).env = s.env := rfl
@[simp] theorem environmentActs_pclkHz (r : Reg) (v : Word) : (environmentActs r v s).pclkHz = s.pclkHz := rfl
@[simp] theorem environmentActs_trace (r : Reg) (v : Word) : (environmentActs r v s).trace = s.trace := rfl

/-! ### Registers -/

@[simp] theorem Periph.get_set_same (p : Periph) (r : Reg) (v : Word) : (p.set r v).get r = v := by cases r <;> rfl

theorem Periph.get_set_other (p : Periph) (r q : Reg) (v : Word) (h : q ≠ r) : (p.set r v).get q = p.get q := by
  cases r <;> cases q <;> first | rfl | exact absurd rfl h

@[simp] theorem Periph.set_addrRead (p : Periph) (r : Reg) (v : Word) : (p.set r v).addrRead = p.addrRead := by
  cases r <;> rfl

@[simp] theorem Periph.set_ackDecision (p : Periph) (r : Reg) (v : Word) :
    (p.set r v).ackDecision = p.ackDecision := by cases r <;> rfl

/-- A read changes `CTRL1` only where it reads it. -/
theorem Periph.afterRead_ctrl1 (p : Periph) (r : Reg) (v : Word) (h : r ≠ .ctrl1) :
    (p.afterRead r v).ctrl1 = p.ctrl1 := by
  cases r <;> first | rfl | exact absurd rfl h

end Sys2Proof.Machine
end

