-- ==== Sys2Proof/Laws/Step.lean ====
section
/-! SUPPORT. Everything one step can do (`step_cases`, `blockStep_cases`, `offer_cases`, `accept_cases`), and from it the
one induction that invariants use (`step_preserves`). -/

namespace Sys2Proof.Machine

/-- With nothing to happen outside, taking nothing away changes nothing. -/
theorem withInputs_nil {s : State} (h : s.host.inputs = []) : withInputs [] s = s := by
  cases s with
  | mk _ _ _ _ _ _ _ _ _ _ _ _ _ _ _ _ _ _ host _ _ _ =>
    cases host with
    | mk _ _ _ inputs => cases h; rfl

/-- The steps that make no access are the strobes and the calculations of a configuration command. -/
theorem access_none {s : State} (hr : s.running = true) (hrow : hasRow s = true) (h : access s = none) :
    ∃ k, s.fsm = .cfg k ∧ cfgAccess k s.plan = none := by
  revert hr hrow h
  unfold State.running hasRow access requestOf whilePolling secondOf leaveOf leaveCtrlOf
  cases hf : s.fsm <;> cases hg : s.stage <;> cases hp : s.phase <;>
    simp [pollRow, Fsm.polls, hf]

/-- Everything a block's own step can do. -/
theorem blockStep_cases {s t : State} (h : blockStep s = .next t) :
    (s.running = true ∧ hasRow s = true ∧ ∃ i u, access s = some i ∧ exec i s = .next u ∧ t = advance u) ∨
    (s.running = true ∧ hasRow s = true ∧ access s = none ∧ t = internalStep s) ∨
    (s.running = false ∧ (s.fsm = .idle → s.host.program = []) ∧ t = s) ∨
    (s.fsm = .idle ∧ ∃ c cs, s.host.program = c :: cs ∧
      offer c { s with host := { s.host with program := cs } } = .next t) := by
  unfold blockStep at h
  split at h
  · unfold commandStep at h
    split at h
    · cases h
    · split at h
      · next i hi =>
        unfold andAdvance at h
        split at h
        · cases h; exact .inl ⟨‹_›, ‹_›, i, _, hi, ‹_›, rfl⟩
        · cases h
        · cases h
      · cases h; exact .inr (.inl ⟨‹_›, ‹_›, ‹_›, rfl⟩)
  · unfold hostIssues at h
    split at h
    · exact .inr (.inr (.inr ⟨‹_›, _, _, ‹_›, h⟩))
    · next hn =>
      cases h
      refine .inr (.inr (.inl ⟨‹_›, fun hf => ?_, rfl⟩))
      cases hp : s.host.program with
      | nil => rfl
      | cons c cs => exact absurd hp (hn c cs hf)

/-- Everything a step can do. -/
theorem step_cases {s t : State} (h : step s = .next t) :
    (∃ xs, (s.host.inputs = [] ∧ xs = [] ∨ s.host.inputs = .quiet :: xs) ∧ blockStep (withInputs xs s) = .next t) ∨
    (∃ p xs, s.host.inputs = .reset p :: xs ∧ t = resetBlock p (withInputs xs s)) ∨
    (∃ r v xs, s.host.inputs = .environment r v :: xs ∧ t = environmentActs r v (withInputs xs s)) ∨
    (∃ c xs, s.host.inputs = .offer c :: xs ∧ offer c (withInputs xs s) = .next t) ∨
    (∃ r v xs, s.host.inputs = .foreign r v :: xs ∧ s.constructed = false ∧
      t = { withInputs xs s with per := s.per.set r v }) ∨
    (∃ i b xs, s.host.inputs = .hostWrite i b :: xs ∧ s.running = false ∧
      t = { s with host := { s.host with inputs := xs, txbuf := s.host.txbuf.write i b } }) ∨
    (∃ xs, s.host.inputs = .hostRead :: xs ∧ s.running = false ∧ t = withInputs xs s) := by
  unfold step stepOf at h
  split at h
  · rename_i hi
    exact .inl ⟨[], .inl ⟨hi, rfl⟩, by rw [withInputs_nil hi]; exact h⟩
  · next x xs hi =>
    unfold inputStep at h
    split at h
    · exact .inl ⟨xs, .inr hi, h⟩
    · cases h; exact .inr (.inl ⟨_, xs, hi, rfl⟩)
    · cases h; exact .inr (.inr (.inl ⟨_, _, xs, hi, rfl⟩))
    · exact .inr (.inr (.inr (.inl ⟨_, xs, hi, h⟩)))
    · unfold foreignAccess at h
      split at h
      · cases h
      · cases h; exact .inr (.inr (.inr (.inr (.inl ⟨_, _, xs, hi, ‹_›, rfl⟩))))
    · unfold hostWrites at h
      split at h
      · cases h
      · cases h; exact .inr (.inr (.inr (.inr (.inr (.inl ⟨_, _, xs, hi, ‹_›, rfl⟩)))))
    · unfold hostReads at h
      split at h
      · cases h
      · cases h; exact .inr (.inr (.inr (.inr (.inr (.inr ⟨xs, hi, ‹_›, rfl⟩)))))

/-- Everything an offered command can do. -/
theorem offer_cases {c : HostCmd} {s t : State} (h : offer c s = .next t) :
    (s.fsm = .idle ∧ (∃ e, decodeDescriptor c.desc = .error e) ∧
      t = raiseFatal .illegalCommand { s with trace := [] }) ∨
    (∃ i, decodeDescriptor c.desc = .ok i ∧ i.isPort = false ∧ exec i (receive i c s) = .next t) := by
  unfold offer at h
  split at h
  · exact .inr ⟨_, ‹_›, decodeDescriptor_isPort ‹_›, h⟩
  · unfold illegalCommand at h
    split at h
    · cases h; exact .inl ⟨‹_›, ⟨_, ‹_›⟩, rfl⟩
    · cases h

/-- The accepting steps keep what they do not name. -/
@[simp] theorem receive_fsm (i : Instr) (c : HostCmd) (s : State) : (receive i c s).fsm = s.fsm := by
  unfold receive; split <;> simp_all
@[simp] theorem receive_constructed (i : Instr) (c : HostCmd) (s : State) :
    (receive i c s).constructed = s.constructed := by unfold receive; split <;> rfl
@[simp] theorem receive_per (i : Instr) (c : HostCmd) (s : State) : (receive i c s).per = s.per := by
  unfold receive; split <;> rfl
@[simp] theorem receive_pclkHz (i : Instr) (c : HostCmd) (s : State) : (receive i c s).pclkHz = s.pclkHz := by
  unfold receive; split <;> rfl
@[simp] theorem receive_timings (i : Instr) (c : HostCmd) (s : State) : (receive i c s).timings = s.timings := by
  unfold receive; split <;> rfl
@[simp] theorem receive_config (i : Instr) (c : HostCmd) (s : State) : (receive i c s).config = s.config := by
  unfold receive; split <;> rfl
@[simp] theorem receive_result (i : Instr) (c : HostCmd) (s : State) : (receive i c s).result = s.result := by
  unfold receive; split <;> rfl
@[simp] theorem receive_env (i : Instr) (c : HostCmd) (s : State) : (receive i c s).env = s.env := by
  unfold receive; split <;> rfl
@[simp] theorem lentFor_inputs (i : Instr) (c : HostCmd) (h : HostSide) : (lentFor i c h).inputs = h.inputs := by
  cases i <;> rfl
@[simp] theorem lentFor_program (i : Instr) (c : HostCmd) (h : HostSide) : (lentFor i c h).program = h.program := by
  cases i <;> rfl
@[simp] theorem receive_inputs (i : Instr) (c : HostCmd) (s : State) :
    (receive i c s).host.inputs = s.host.inputs := by
  unfold receive; split <;> simp
/-- An idle block that takes a command starts a new trace (log 20). -/
theorem receive_idle {s : State} (h : s.fsm = .idle) (i : Instr) (c : HostCmd) :
    receive i c s = { s with host := lentFor i c s.host, trace := [] } := by
  unfold receive; split
  · rfl
  · exact absurd h ‹_›

/-- A block that is not idle takes nothing. -/
theorem receive_busy {s : State} (h : s.fsm ≠ .idle) (i : Instr) (c : HostCmd) : receive i c s = s := by
  unfold receive; split
  · contradiction
  · rfl

/-- A descriptor no row matches, offered (30_encoding.md R103): fatal in `IDLE`, `Busy` elsewhere (log 16). -/
theorem offer_illegal {s : State} {c : HostCmd} (h : ∀ i, decodeDescriptor c.desc ≠ .ok i) :
    (s.fsm = .idle → offer c s = .next { s with fsm := .halt .illegalCommand, trace := [] }) ∧
    (s.fsm ≠ .idle → offer c s = .refused .busy) := by
  have ho : offer c s = illegalCommand s := by
    unfold offer; split
    · exact absurd ‹_› (h _)
    · rfl
  rw [ho]; unfold illegalCommand; split
  · exact ⟨fun _ => rfl, fun hn => absurd ‹_› hn⟩
  · exact ⟨fun hi => absurd hi ‹_›, fun _ => rfl⟩

/-- The one induction: a property `P` that every kind of step keeps is kept by `step`. `C` is what `P` says of a command
that is still to be issued. -/
theorem step_preserves {P : State → Prop} {C : HostCmd → Prop}
    (inputs : ∀ xs s, (∀ x ∈ xs, x ∈ s.host.inputs) → P s → P (withInputs xs s))
    (access : ∀ s i u, P s → s.running = true → hasRow s = true → access s = some i → exec i s = .next u →
      P (advance u))
    (internal : ∀ s k, P s → s.fsm = .cfg k → cfgAccess k s.plan = none → P (cfgInternal k s))
    (lend : ∀ s c, P s → (c ∈ s.host.program ∨ .offer c ∈ s.host.inputs) → C c)
    (program : ∀ s c cs, s.host.program = c :: cs → P s → P { s with host := { s.host with program := cs } })
    (command : ∀ c s t, C c → P s → offer c s = .next t → P t)
    (reset : ∀ s p, P s → P (resetBlock p s))
    (environment : ∀ s r v, P s → P (environmentActs r v s))
    (foreign : ∀ s r v, .foreign r v ∈ s.host.inputs → s.constructed = false → P s →
      P { s with per := s.per.set r v })
    (write : ∀ s i b, s.running = false → P s → P { s with host := { s.host with txbuf := s.host.txbuf.write i b } })
    {s t : State} (hs : P s) (h : step s = .next t) : P t := by
  rcases step_cases h with ⟨xs, hx, hb⟩ | ⟨p, xs, hx, rfl⟩ | ⟨r, v, xs, hx, rfl⟩ | ⟨c, xs, hx, ho⟩ | ⟨r, v, xs, hx, hc, rfl⟩ |
    ⟨i, b, xs, hx, hr, rfl⟩ | ⟨xs, hx, -, rfl⟩
  · have hp : P (withInputs xs s) := by
      rcases hx with ⟨hx, rfl⟩ | hx
      · rwa [withInputs_nil hx]
      · exact inputs xs s (fun x h => by rw [hx]; exact List.mem_cons_of_mem _ h) hs
    rcases blockStep_cases hb with ⟨hr, hrow, i, u, hi, hu, rfl⟩ | ⟨hr, hrow, hn, rfl⟩ | ⟨-, -, rfl⟩ | ⟨-, c, cs, hc, ho⟩
    · exact access _ i u hp hr hrow hi hu
    · obtain ⟨k, hk, hn⟩ := access_none hr hrow hn
      have := internal _ k hp hk hn
      simpa only [internalStep, hk] using this
    · exact hp
    · exact command c _ t (lend _ c hp (.inl (by rw [hc]; exact List.mem_cons_self ..))) (program _ c cs hc hp) ho
  · exact reset _ p (inputs xs s (fun x h => by rw [hx]; exact List.mem_cons_of_mem _ h) hs)
  · exact environment _ r v (inputs xs s (fun x h => by rw [hx]; exact List.mem_cons_of_mem _ h) hs)
  · exact command c _ t (lend s c hs (.inr (by rw [hx]; exact List.mem_cons_self ..)))
      (inputs xs s (fun x h => by rw [hx]; exact List.mem_cons_of_mem _ h) hs) ho
  · exact inputs xs _ (fun x h => by change x ∈ s.host.inputs; rw [hx]; exact List.mem_cons_of_mem _ h)
      (foreign s r v (by rw [hx]; exact List.mem_cons_self ..) hc hs)
  · exact inputs xs _ (fun x h => by change x ∈ s.host.inputs; rw [hx]; exact List.mem_cons_of_mem _ h)
      (write s i b hr hs)
  · exact inputs xs s (fun x h => by rw [hx]; exact List.mem_cons_of_mem _ h) hs

end Sys2Proof.Machine
end

