-- ==== Sys2Proof/Laws/Sequencer.lean ====
section
/-! SUPPORT. What an access of the sequencer is and keeps, what follows it keeps, and runs of several steps. -/

namespace Sys2Proof.Machine

/-! ### The access -/

/-- The access the block makes next is a micro-operation. -/
theorem access_isPort {i : Instr} {s : State} (h : access s = some i) : i.isPort = true := by
  revert h
  unfold access requestOf whilePolling secondOf leaveOf leaveCtrlOf cfgAccess clearOf cfgFreq cfgCcr cfgTrise
  repeat' split
  all_goals first | (intro h; cases h; rfl) | (intro h; cases h)

/-- A `STAT1` read is made only by a monitor call of a polling state (20_memory.md R69). -/
theorem access_stat1 {s : State} (h : access s = some .pRdStat1) : s.stage = .monitor ∧ s.fsm.polls = true := by
  revert h
  unfold access requestOf whilePolling secondOf leaveOf leaveCtrlOf cfgAccess clearOf cfgFreq cfgCcr cfgTrise
  repeat' split
  all_goals first | (intro h; cases h; done) | skip
  intro h; simp_all

/-- A micro-operation changes the peripheral, the environment, the value read and the trace only. -/
theorem exec_port_frame {i : Instr} (hi : i.isPort = true) {s u : State} (h : exec i s = .next u) :
    u = { s with per := u.per, env := u.env, rdata := u.rdata, trace := u.trace } := by
  cases i <;> first | exact absurd hi Bool.false_ne_true | (cases h; rfl)

/-- A micro-operation answers a next state. -/
theorem exec_port_next {i : Instr} (hi : i.isPort = true) (s : State) : ∃ u, exec i s = .next u := by
  cases i <;> first | exact absurd hi Bool.false_ne_true | exact ⟨_, rfl⟩

/-! ### What follows an access keeps -/

/-! `per` -/

@[simp] theorem enterRead_per (s : State) : (enterRead s).per = s.per := by unfold enterRead; split <;> rfl
@[simp] theorem afterPayload_per (g : Stage) (s : State) : (afterPayload g s).per = s.per := by unfold afterPayload; split <;> first | rfl | exact enterRead_per s
@[simp] theorem afterBtf_per (s : State) : (afterBtf s).per = s.per := by unfold afterBtf; split <;> first | rfl | exact afterPayload_per _ s
@[simp] theorem afterMonitor_per (s : State) : (afterMonitor s).per = s.per := by
  unfold afterMonitor pollFlag; repeat' split
  all_goals first | rfl | exact afterBtf_per (storeSnap s)
@[simp] theorem afterStatusRead_per (s : State) : (afterStatusRead s).per = s.per := by
  unfold afterStatusRead; repeat' split
  all_goals first | rfl | exact afterMonitor_per s
@[simp] theorem afterClearErr_per (f : ErrFlag) (s : State) : (afterClearErr f s).per = s.per := by unfold afterClearErr; split <;> rfl
@[simp] theorem afterClearBerr_per (e : Option ErrFlag) (s : State) : (afterClearBerr e s).per = s.per := by
  unfold afterClearBerr; split <;> first | rfl | exact afterMonitor_per s
@[simp] theorem afterSecond_per (s : State) : (afterSecond s).per = s.per := by
  unfold afterSecond; repeat' split
  all_goals rfl
@[simp] theorem afterLatchClear_per (s : State) : (afterLatchClear s).per = s.per := by
  unfold afterLatchClear; repeat' split
  all_goals first | rfl | exact afterPayload_per _ s
@[simp] theorem afterDrain_per (s : State) : (afterDrain s).per = s.per := by
  unfold afterDrain; repeat' split
  all_goals rfl
@[simp] theorem afterLeave_per (s : State) : (afterLeave s).per = s.per := by
  unfold afterLeave; repeat' split
  all_goals first | rfl | exact afterLatchClear_per s | exact afterDrain_per s
@[simp] theorem afterLeaveCtrl_per (s : State) : (afterLeaveCtrl s).per = s.per := by
  unfold afterLeaveCtrl; repeat' split
  all_goals rfl
@[simp] theorem afterCfg_per (k : CfgStep) (s : State) : (afterCfg k s).per = s.per := by cases k <;> rfl
@[simp] theorem advance_per (s : State) : (advance s).per = s.per := by
  unfold advance; repeat' split
  all_goals first | rfl | exact afterCfg_per _ s | exact afterStatusRead_per s | exact afterClearErr_per _ s |
    exact afterClearBerr_per _ s | exact afterSecond_per s | exact afterLeave_per s | exact afterLeaveCtrl_per s

/-! `env` -/

@[simp] theorem enterRead_env (s : State) : (enterRead s).env = s.env := by unfold enterRead; split <;> rfl
@[simp] theorem afterPayload_env (g : Stage) (s : State) : (afterPayload g s).env = s.env := by unfold afterPayload; split <;> first | rfl | exact enterRead_env s
@[simp] theorem afterBtf_env (s : State) : (afterBtf s).env = s.env := by unfold afterBtf; split <;> first | rfl | exact afterPayload_env _ s
@[simp] theorem afterMonitor_env (s : State) : (afterMonitor s).env = s.env := by
  unfold afterMonitor pollFlag; repeat' split
  all_goals first | rfl | exact afterBtf_env (storeSnap s)
@[simp] theorem afterStatusRead_env (s : State) : (afterStatusRead s).env = s.env := by
  unfold afterStatusRead; repeat' split
  all_goals first | rfl | exact afterMonitor_env s
@[simp] theorem afterClearErr_env (f : ErrFlag) (s : State) : (afterClearErr f s).env = s.env := by unfold afterClearErr; split <;> rfl
@[simp] theorem afterClearBerr_env (e : Option ErrFlag) (s : State) : (afterClearBerr e s).env = s.env := by
  unfold afterClearBerr; split <;> first | rfl | exact afterMonitor_env s
@[simp] theorem afterSecond_env (s : State) : (afterSecond s).env = s.env := by
  unfold afterSecond; repeat' split
  all_goals rfl
@[simp] theorem afterLatchClear_env (s : State) : (afterLatchClear s).env = s.env := by
  unfold afterLatchClear; repeat' split
  all_goals first | rfl | exact afterPayload_env _ s
@[simp] theorem afterDrain_env (s : State) : (afterDrain s).env = s.env := by
  unfold afterDrain; repeat' split
  all_goals rfl
@[simp] theorem afterLeave_env (s : State) : (afterLeave s).env = s.env := by
  unfold afterLeave; repeat' split
  all_goals first | rfl | exact afterLatchClear_env s | exact afterDrain_env s
@[simp] theorem afterLeaveCtrl_env (s : State) : (afterLeaveCtrl s).env = s.env := by
  unfold afterLeaveCtrl; repeat' split
  all_goals rfl
@[simp] theorem afterCfg_env (k : CfgStep) (s : State) : (afterCfg k s).env = s.env := by cases k <;> rfl
@[simp] theorem advance_env (s : State) : (advance s).env = s.env := by
  unfold advance; repeat' split
  all_goals first | rfl | exact afterCfg_env _ s | exact afterStatusRead_env s | exact afterClearErr_env _ s |
    exact afterClearBerr_env _ s | exact afterSecond_env s | exact afterLeave_env s | exact afterLeaveCtrl_env s

/-! `trace` -/

@[simp] theorem enterRead_trace (s : State) : (enterRead s).trace = s.trace := by unfold enterRead; split <;> rfl
@[simp] theorem afterPayload_trace (g : Stage) (s : State) : (afterPayload g s).trace = s.trace := by unfold afterPayload; split <;> first | rfl | exact enterRead_trace s
@[simp] theorem afterBtf_trace (s : State) : (afterBtf s).trace = s.trace := by unfold afterBtf; split <;> first | rfl | exact afterPayload_trace _ s
@[simp] theorem afterMonitor_trace (s : State) : (afterMonitor s).trace = s.trace := by
  unfold afterMonitor pollFlag; repeat' split
  all_goals first | rfl | exact afterBtf_trace (storeSnap s)
@[simp] theorem afterStatusRead_trace (s : State) : (afterStatusRead s).trace = s.trace := by
  unfold afterStatusRead; repeat' split
  all_goals first | rfl | exact afterMonitor_trace s
@[simp] theorem afterClearErr_trace (f : ErrFlag) (s : State) : (afterClearErr f s).trace = s.trace := by unfold afterClearErr; split <;> rfl
@[simp] theorem afterClearBerr_trace (e : Option ErrFlag) (s : State) : (afterClearBerr e s).trace = s.trace := by
  unfold afterClearBerr; split <;> first | rfl | exact afterMonitor_trace s
@[simp] theorem afterSecond_trace (s : State) : (afterSecond s).trace = s.trace := by
  unfold afterSecond; repeat' split
  all_goals rfl
@[simp] theorem afterLatchClear_trace (s : State) : (afterLatchClear s).trace = s.trace := by
  unfold afterLatchClear; repeat' split
  all_goals first | rfl | exact afterPayload_trace _ s
@[simp] theorem afterDrain_trace (s : State) : (afterDrain s).trace = s.trace := by
  unfold afterDrain; repeat' split
  all_goals rfl
@[simp] theorem afterLeave_trace (s : State) : (afterLeave s).trace = s.trace := by
  unfold afterLeave; repeat' split
  all_goals first | rfl | exact afterLatchClear_trace s | exact afterDrain_trace s
@[simp] theorem afterLeaveCtrl_trace (s : State) : (afterLeaveCtrl s).trace = s.trace := by
  unfold afterLeaveCtrl; repeat' split
  all_goals rfl
@[simp] theorem afterCfg_trace (k : CfgStep) (s : State) : (afterCfg k s).trace = s.trace := by cases k <;> rfl
@[simp] theorem advance_trace (s : State) : (advance s).trace = s.trace := by
  unfold advance; repeat' split
  all_goals first | rfl | exact afterCfg_trace _ s | exact afterStatusRead_trace s | exact afterClearErr_trace _ s |
    exact afterClearBerr_trace _ s | exact afterSecond_trace s | exact afterLeave_trace s | exact afterLeaveCtrl_trace s

/-! `addr7` -/

@[simp] theorem enterRead_addr7 (s : State) : (enterRead s).addr7 = s.addr7 := by unfold enterRead; split <;> rfl
@[simp] theorem afterPayload_addr7 (g : Stage) (s : State) : (afterPayload g s).addr7 = s.addr7 := by unfold afterPayload; split <;> first | rfl | exact enterRead_addr7 s
@[simp] theorem afterBtf_addr7 (s : State) : (afterBtf s).addr7 = s.addr7 := by unfold afterBtf; split <;> first | rfl | exact afterPayload_addr7 _ s
@[simp] theorem afterMonitor_addr7 (s : State) : (afterMonitor s).addr7 = s.addr7 := by
  unfold afterMonitor pollFlag; repeat' split
  all_goals first | rfl | exact afterBtf_addr7 (storeSnap s)
@[simp] theorem afterStatusRead_addr7 (s : State) : (afterStatusRead s).addr7 = s.addr7 := by
  unfold afterStatusRead; repeat' split
  all_goals first | rfl | exact afterMonitor_addr7 s
@[simp] theorem afterClearErr_addr7 (f : ErrFlag) (s : State) : (afterClearErr f s).addr7 = s.addr7 := by unfold afterClearErr; split <;> rfl
@[simp] theorem afterClearBerr_addr7 (e : Option ErrFlag) (s : State) : (afterClearBerr e s).addr7 = s.addr7 := by
  unfold afterClearBerr; split <;> first | rfl | exact afterMonitor_addr7 s
@[simp] theorem afterSecond_addr7 (s : State) : (afterSecond s).addr7 = s.addr7 := by
  unfold afterSecond; repeat' split
  all_goals rfl
@[simp] theorem afterLatchClear_addr7 (s : State) : (afterLatchClear s).addr7 = s.addr7 := by
  unfold afterLatchClear; repeat' split
  all_goals first | rfl | exact afterPayload_addr7 _ s
@[simp] theorem afterDrain_addr7 (s : State) : (afterDrain s).addr7 = s.addr7 := by
  unfold afterDrain; repeat' split
  all_goals rfl
@[simp] theorem afterLeave_addr7 (s : State) : (afterLeave s).addr7 = s.addr7 := by
  unfold afterLeave; repeat' split
  all_goals first | rfl | exact afterLatchClear_addr7 s | exact afterDrain_addr7 s
@[simp] theorem afterLeaveCtrl_addr7 (s : State) : (afterLeaveCtrl s).addr7 = s.addr7 := by
  unfold afterLeaveCtrl; repeat' split
  all_goals rfl
@[simp] theorem afterCfg_addr7 (k : CfgStep) (s : State) : (afterCfg k s).addr7 = s.addr7 := by cases k <;> rfl
@[simp] theorem advance_addr7 (s : State) : (advance s).addr7 = s.addr7 := by
  unfold advance; repeat' split
  all_goals first | rfl | exact afterCfg_addr7 _ s | exact afterStatusRead_addr7 s | exact afterClearErr_addr7 _ s |
    exact afterClearBerr_addr7 _ s | exact afterSecond_addr7 s | exact afterLeave_addr7 s | exact afterLeaveCtrl_addr7 s

/-! `op` -/

@[simp] theorem enterRead_op (s : State) : (enterRead s).op = s.op := by unfold enterRead; split <;> rfl
@[simp] theorem afterPayload_op (g : Stage) (s : State) : (afterPayload g s).op = s.op := by unfold afterPayload; split <;> first | rfl | exact enterRead_op s
@[simp] theorem afterBtf_op (s : State) : (afterBtf s).op = s.op := by unfold afterBtf; split <;> first | rfl | exact afterPayload_op _ s
@[simp] theorem afterMonitor_op (s : State) : (afterMonitor s).op = s.op := by
  unfold afterMonitor pollFlag; repeat' split
  all_goals first | rfl | exact afterBtf_op (storeSnap s)
@[simp] theorem afterStatusRead_op (s : State) : (afterStatusRead s).op = s.op := by
  unfold afterStatusRead; repeat' split
  all_goals first | rfl | exact afterMonitor_op s
@[simp] theorem afterClearErr_op (f : ErrFlag) (s : State) : (afterClearErr f s).op = s.op := by unfold afterClearErr; split <;> rfl
@[simp] theorem afterClearBerr_op (e : Option ErrFlag) (s : State) : (afterClearBerr e s).op = s.op := by unfold afterClearBerr; split <;> first | rfl | exact afterMonitor_op s
@[simp] theorem afterSecond_op (s : State) : (afterSecond s).op = s.op := by
  unfold afterSecond; repeat' split
  all_goals rfl
@[simp] theorem afterLatchClear_op (s : State) : (afterLatchClear s).op = s.op := by
  unfold afterLatchClear; repeat' split
  all_goals first | rfl | exact afterPayload_op _ s
@[simp] theorem afterDrain_op (s : State) : (afterDrain s).op = s.op := by
  unfold afterDrain; repeat' split
  all_goals rfl
@[simp] theorem afterLeave_op (s : State) : (afterLeave s).op = s.op := by
  unfold afterLeave; repeat' split
  all_goals first | rfl | exact afterLatchClear_op s | exact afterDrain_op s
@[simp] theorem afterLeaveCtrl_op (s : State) : (afterLeaveCtrl s).op = s.op := by
  unfold afterLeaveCtrl; repeat' split
  all_goals rfl
@[simp] theorem afterCfg_op (k : CfgStep) (s : State) : (afterCfg k s).op = s.op := by cases k <;> rfl
@[simp] theorem advance_op (s : State) : (advance s).op = s.op := by
  unfold advance; repeat' split
  all_goals first | rfl | exact afterCfg_op _ s | exact afterStatusRead_op s | exact afterClearErr_op _ s |
    exact afterClearBerr_op _ s | exact afterSecond_op s | exact afterLeave_op s | exact afterLeaveCtrl_op s

/-! `wlen` -/

@[simp] theorem enterRead_wlen (s : State) : (enterRead s).wlen = s.wlen := by unfold enterRead; split <;> rfl
@[simp] theorem afterPayload_wlen (g : Stage) (s : State) : (afterPayload g s).wlen = s.wlen := by unfold afterPayload; split <;> first | rfl | exact enterRead_wlen s
@[simp] theorem afterBtf_wlen (s : State) : (afterBtf s).wlen = s.wlen := by unfold afterBtf; split <;> first | rfl | exact afterPayload_wlen _ s
@[simp] theorem afterMonitor_wlen (s : State) : (afterMonitor s).wlen = s.wlen := by
  unfold afterMonitor pollFlag; repeat' split
  all_goals first | rfl | exact afterBtf_wlen (storeSnap s)
@[simp] theorem afterStatusRead_wlen (s : State) : (afterStatusRead s).wlen = s.wlen := by
  unfold afterStatusRead; repeat' split
  all_goals first | rfl | exact afterMonitor_wlen s
@[simp] theorem afterClearErr_wlen (f : ErrFlag) (s : State) : (afterClearErr f s).wlen = s.wlen := by unfold afterClearErr; split <;> rfl
@[simp] theorem afterClearBerr_wlen (e : Option ErrFlag) (s : State) : (afterClearBerr e s).wlen = s.wlen := by
  unfold afterClearBerr; split <;> first | rfl | exact afterMonitor_wlen s
@[simp] theorem afterSecond_wlen (s : State) : (afterSecond s).wlen = s.wlen := by
  unfold afterSecond; repeat' split
  all_goals rfl
@[simp] theorem afterLatchClear_wlen (s : State) : (afterLatchClear s).wlen = s.wlen := by
  unfold afterLatchClear; repeat' split
  all_goals first | rfl | exact afterPayload_wlen _ s
@[simp] theorem afterDrain_wlen (s : State) : (afterDrain s).wlen = s.wlen := by
  unfold afterDrain; repeat' split
  all_goals rfl
@[simp] theorem afterLeave_wlen (s : State) : (afterLeave s).wlen = s.wlen := by
  unfold afterLeave; repeat' split
  all_goals first | rfl | exact afterLatchClear_wlen s | exact afterDrain_wlen s
@[simp] theorem afterLeaveCtrl_wlen (s : State) : (afterLeaveCtrl s).wlen = s.wlen := by
  unfold afterLeaveCtrl; repeat' split
  all_goals rfl
@[simp] theorem afterCfg_wlen (k : CfgStep) (s : State) : (afterCfg k s).wlen = s.wlen := by cases k <;> rfl
@[simp] theorem advance_wlen (s : State) : (advance s).wlen = s.wlen := by
  unfold advance; repeat' split
  all_goals first | rfl | exact afterCfg_wlen _ s | exact afterStatusRead_wlen s | exact afterClearErr_wlen _ s |
    exact afterClearBerr_wlen _ s | exact afterSecond_wlen s | exact afterLeave_wlen s | exact afterLeaveCtrl_wlen s

/-! `rlen` -/

@[simp] theorem enterRead_rlen (s : State) : (enterRead s).rlen = s.rlen := by unfold enterRead; split <;> rfl
@[simp] theorem afterPayload_rlen (g : Stage) (s : State) : (afterPayload g s).rlen = s.rlen := by unfold afterPayload; split <;> first | rfl | exact enterRead_rlen s
@[simp] theorem afterBtf_rlen (s : State) : (afterBtf s).rlen = s.rlen := by unfold afterBtf; split <;> first | rfl | exact afterPayload_rlen _ s
@[simp] theorem afterMonitor_rlen (s : State) : (afterMonitor s).rlen = s.rlen := by
  unfold afterMonitor pollFlag; repeat' split
  all_goals first | rfl | exact afterBtf_rlen (storeSnap s)
@[simp] theorem afterStatusRead_rlen (s : State) : (afterStatusRead s).rlen = s.rlen := by
  unfold afterStatusRead; repeat' split
  all_goals first | rfl | exact afterMonitor_rlen s
@[simp] theorem afterClearErr_rlen (f : ErrFlag) (s : State) : (afterClearErr f s).rlen = s.rlen := by unfold afterClearErr; split <;> rfl
@[simp] theorem afterClearBerr_rlen (e : Option ErrFlag) (s : State) : (afterClearBerr e s).rlen = s.rlen := by
  unfold afterClearBerr; split <;> first | rfl | exact afterMonitor_rlen s
@[simp] theorem afterSecond_rlen (s : State) : (afterSecond s).rlen = s.rlen := by
  unfold afterSecond; repeat' split
  all_goals rfl
@[simp] theorem afterLatchClear_rlen (s : State) : (afterLatchClear s).rlen = s.rlen := by
  unfold afterLatchClear; repeat' split
  all_goals first | rfl | exact afterPayload_rlen _ s
@[simp] theorem afterDrain_rlen (s : State) : (afterDrain s).rlen = s.rlen := by
  unfold afterDrain; repeat' split
  all_goals rfl
@[simp] theorem afterLeave_rlen (s : State) : (afterLeave s).rlen = s.rlen := by
  unfold afterLeave; repeat' split
  all_goals first | rfl | exact afterLatchClear_rlen s | exact afterDrain_rlen s
@[simp] theorem afterLeaveCtrl_rlen (s : State) : (afterLeaveCtrl s).rlen = s.rlen := by
  unfold afterLeaveCtrl; repeat' split
  all_goals rfl
@[simp] theorem afterCfg_rlen (k : CfgStep) (s : State) : (afterCfg k s).rlen = s.rlen := by cases k <;> rfl
@[simp] theorem advance_rlen (s : State) : (advance s).rlen = s.rlen := by
  unfold advance; repeat' split
  all_goals first | rfl | exact afterCfg_rlen _ s | exact afterStatusRead_rlen s | exact afterClearErr_rlen _ s |
    exact afterClearBerr_rlen _ s | exact afterSecond_rlen s | exact afterLeave_rlen s | exact afterLeaveCtrl_rlen s

/-! `freq` -/

@[simp] theorem enterRead_freq (s : State) : (enterRead s).freq = s.freq := by unfold enterRead; split <;> rfl
@[simp] theorem afterPayload_freq (g : Stage) (s : State) : (afterPayload g s).freq = s.freq := by unfold afterPayload; split <;> first | rfl | exact enterRead_freq s
@[simp] theorem afterBtf_freq (s : State) : (afterBtf s).freq = s.freq := by unfold afterBtf; split <;> first | rfl | exact afterPayload_freq _ s
@[simp] theorem afterMonitor_freq (s : State) : (afterMonitor s).freq = s.freq := by
  unfold afterMonitor pollFlag; repeat' split
  all_goals first | rfl | exact afterBtf_freq (storeSnap s)
@[simp] theorem afterStatusRead_freq (s : State) : (afterStatusRead s).freq = s.freq := by
  unfold afterStatusRead; repeat' split
  all_goals first | rfl | exact afterMonitor_freq s
@[simp] theorem afterClearErr_freq (f : ErrFlag) (s : State) : (afterClearErr f s).freq = s.freq := by unfold afterClearErr; split <;> rfl
@[simp] theorem afterClearBerr_freq (e : Option ErrFlag) (s : State) : (afterClearBerr e s).freq = s.freq := by
  unfold afterClearBerr; split <;> first | rfl | exact afterMonitor_freq s
@[simp] theorem afterSecond_freq (s : State) : (afterSecond s).freq = s.freq := by
  unfold afterSecond; repeat' split
  all_goals rfl
@[simp] theorem afterLatchClear_freq (s : State) : (afterLatchClear s).freq = s.freq := by
  unfold afterLatchClear; repeat' split
  all_goals first | rfl | exact afterPayload_freq _ s
@[simp] theorem afterDrain_freq (s : State) : (afterDrain s).freq = s.freq := by
  unfold afterDrain; repeat' split
  all_goals rfl
@[simp] theorem afterLeave_freq (s : State) : (afterLeave s).freq = s.freq := by
  unfold afterLeave; repeat' split
  all_goals first | rfl | exact afterLatchClear_freq s | exact afterDrain_freq s
@[simp] theorem afterLeaveCtrl_freq (s : State) : (afterLeaveCtrl s).freq = s.freq := by
  unfold afterLeaveCtrl; repeat' split
  all_goals rfl
@[simp] theorem afterCfg_freq (k : CfgStep) (s : State) : (afterCfg k s).freq = s.freq := by cases k <;> rfl
@[simp] theorem advance_freq (s : State) : (advance s).freq = s.freq := by
  unfold advance; repeat' split
  all_goals first | rfl | exact afterCfg_freq _ s | exact afterStatusRead_freq s | exact afterClearErr_freq _ s |
    exact afterClearBerr_freq _ s | exact afterSecond_freq s | exact afterLeave_freq s | exact afterLeaveCtrl_freq s

/-! `pull` -/

@[simp] theorem enterRead_pull (s : State) : (enterRead s).pull = s.pull := by unfold enterRead; split <;> rfl
@[simp] theorem afterPayload_pull (g : Stage) (s : State) : (afterPayload g s).pull = s.pull := by unfold afterPayload; split <;> first | rfl | exact enterRead_pull s
@[simp] theorem afterBtf_pull (s : State) : (afterBtf s).pull = s.pull := by unfold afterBtf; split <;> first | rfl | exact afterPayload_pull _ s
@[simp] theorem afterMonitor_pull (s : State) : (afterMonitor s).pull = s.pull := by
  unfold afterMonitor pollFlag; repeat' split
  all_goals first | rfl | exact afterBtf_pull (storeSnap s)
@[simp] theorem afterStatusRead_pull (s : State) : (afterStatusRead s).pull = s.pull := by
  unfold afterStatusRead; repeat' split
  all_goals first | rfl | exact afterMonitor_pull s
@[simp] theorem afterClearErr_pull (f : ErrFlag) (s : State) : (afterClearErr f s).pull = s.pull := by unfold afterClearErr; split <;> rfl
@[simp] theorem afterClearBerr_pull (e : Option ErrFlag) (s : State) : (afterClearBerr e s).pull = s.pull := by
  unfold afterClearBerr; split <;> first | rfl | exact afterMonitor_pull s
@[simp] theorem afterSecond_pull (s : State) : (afterSecond s).pull = s.pull := by
  unfold afterSecond; repeat' split
  all_goals rfl
@[simp] theorem afterLatchClear_pull (s : State) : (afterLatchClear s).pull = s.pull := by
  unfold afterLatchClear; repeat' split
  all_goals first | rfl | exact afterPayload_pull _ s
@[simp] theorem afterDrain_pull (s : State) : (afterDrain s).pull = s.pull := by
  unfold afterDrain; repeat' split
  all_goals rfl
@[simp] theorem afterLeave_pull (s : State) : (afterLeave s).pull = s.pull := by
  unfold afterLeave; repeat' split
  all_goals first | rfl | exact afterLatchClear_pull s | exact afterDrain_pull s
@[simp] theorem afterLeaveCtrl_pull (s : State) : (afterLeaveCtrl s).pull = s.pull := by
  unfold afterLeaveCtrl; repeat' split
  all_goals rfl
@[simp] theorem afterCfg_pull (k : CfgStep) (s : State) : (afterCfg k s).pull = s.pull := by cases k <;> rfl
@[simp] theorem advance_pull (s : State) : (advance s).pull = s.pull := by
  unfold advance; repeat' split
  all_goals first | rfl | exact afterCfg_pull _ s | exact afterStatusRead_pull s | exact afterClearErr_pull _ s |
    exact afterClearBerr_pull _ s | exact afterSecond_pull s | exact afterLeave_pull s | exact afterLeaveCtrl_pull s

/-! `plan` -/

@[simp] theorem enterRead_plan (s : State) : (enterRead s).plan = s.plan := by unfold enterRead; split <;> rfl
@[simp] theorem afterPayload_plan (g : Stage) (s : State) : (afterPayload g s).plan = s.plan := by unfold afterPayload; split <;> first | rfl | exact enterRead_plan s
@[simp] theorem afterBtf_plan (s : State) : (afterBtf s).plan = s.plan := by unfold afterBtf; split <;> first | rfl | exact afterPayload_plan _ s
@[simp] theorem afterMonitor_plan (s : State) : (afterMonitor s).plan = s.plan := by
  unfold afterMonitor pollFlag; repeat' split
  all_goals first | rfl | exact afterBtf_plan (storeSnap s)
@[simp] theorem afterStatusRead_plan (s : State) : (afterStatusRead s).plan = s.plan := by
  unfold afterStatusRead; repeat' split
  all_goals first | rfl | exact afterMonitor_plan s
@[simp] theorem afterClearErr_plan (f : ErrFlag) (s : State) : (afterClearErr f s).plan = s.plan := by unfold afterClearErr; split <;> rfl
@[simp] theorem afterClearBerr_plan (e : Option ErrFlag) (s : State) : (afterClearBerr e s).plan = s.plan := by
  unfold afterClearBerr; split <;> first | rfl | exact afterMonitor_plan s
@[simp] theorem afterSecond_plan (s : State) : (afterSecond s).plan = s.plan := by
  unfold afterSecond; repeat' split
  all_goals rfl
@[simp] theorem afterLatchClear_plan (s : State) : (afterLatchClear s).plan = s.plan := by
  unfold afterLatchClear; repeat' split
  all_goals first | rfl | exact afterPayload_plan _ s
@[simp] theorem afterDrain_plan (s : State) : (afterDrain s).plan = s.plan := by
  unfold afterDrain; repeat' split
  all_goals rfl
@[simp] theorem afterLeave_plan (s : State) : (afterLeave s).plan = s.plan := by
  unfold afterLeave; repeat' split
  all_goals first | rfl | exact afterLatchClear_plan s | exact afterDrain_plan s
@[simp] theorem afterLeaveCtrl_plan (s : State) : (afterLeaveCtrl s).plan = s.plan := by
  unfold afterLeaveCtrl; repeat' split
  all_goals rfl
@[simp] theorem afterCfg_plan (k : CfgStep) (s : State) : (afterCfg k s).plan = s.plan := by cases k <;> rfl
@[simp] theorem advance_plan (s : State) : (advance s).plan = s.plan := by
  unfold advance; repeat' split
  all_goals first | rfl | exact afterCfg_plan _ s | exact afterStatusRead_plan s | exact afterClearErr_plan _ s |
    exact afterClearBerr_plan _ s | exact afterSecond_plan s | exact afterLeave_plan s | exact afterLeaveCtrl_plan s

/-! `rdata` -/

@[simp] theorem enterRead_rdata (s : State) : (enterRead s).rdata = s.rdata := by unfold enterRead; split <;> rfl
@[simp] theorem afterPayload_rdata (g : Stage) (s : State) : (afterPayload g s).rdata = s.rdata := by unfold afterPayload; split <;> first | rfl | exact enterRead_rdata s
@[simp] theorem afterBtf_rdata (s : State) : (afterBtf s).rdata = s.rdata := by unfold afterBtf; split <;> first | rfl | exact afterPayload_rdata _ s
@[simp] theorem afterMonitor_rdata (s : State) : (afterMonitor s).rdata = s.rdata := by
  unfold afterMonitor pollFlag; repeat' split
  all_goals first | rfl | exact afterBtf_rdata (storeSnap s)
@[simp] theorem afterStatusRead_rdata (s : State) : (afterStatusRead s).rdata = s.rdata := by
  unfold afterStatusRead; repeat' split
  all_goals first | rfl | exact afterMonitor_rdata s
@[simp] theorem afterClearErr_rdata (f : ErrFlag) (s : State) : (afterClearErr f s).rdata = s.rdata := by unfold afterClearErr; split <;> rfl
@[simp] theorem afterClearBerr_rdata (e : Option ErrFlag) (s : State) : (afterClearBerr e s).rdata = s.rdata := by
  unfold afterClearBerr; split <;> first | rfl | exact afterMonitor_rdata s
@[simp] theorem afterSecond_rdata (s : State) : (afterSecond s).rdata = s.rdata := by
  unfold afterSecond; repeat' split
  all_goals rfl
@[simp] theorem afterLatchClear_rdata (s : State) : (afterLatchClear s).rdata = s.rdata := by
  unfold afterLatchClear; repeat' split
  all_goals first | rfl | exact afterPayload_rdata _ s
@[simp] theorem afterDrain_rdata (s : State) : (afterDrain s).rdata = s.rdata := by
  unfold afterDrain; repeat' split
  all_goals rfl
@[simp] theorem afterLeave_rdata (s : State) : (afterLeave s).rdata = s.rdata := by
  unfold afterLeave; repeat' split
  all_goals first | rfl | exact afterLatchClear_rdata s | exact afterDrain_rdata s
@[simp] theorem afterLeaveCtrl_rdata (s : State) : (afterLeaveCtrl s).rdata = s.rdata := by
  unfold afterLeaveCtrl; repeat' split
  all_goals rfl
@[simp] theorem afterCfg_rdata (k : CfgStep) (s : State) : (afterCfg k s).rdata = s.rdata := by cases k <;> rfl
@[simp] theorem advance_rdata (s : State) : (advance s).rdata = s.rdata := by
  unfold advance; repeat' split
  all_goals first | rfl | exact afterCfg_rdata _ s | exact afterStatusRead_rdata s | exact afterClearErr_rdata _ s |
    exact afterClearBerr_rdata _ s | exact afterSecond_rdata s | exact afterLeave_rdata s | exact afterLeaveCtrl_rdata s

/-! `pclkHz` -/

@[simp] theorem enterRead_pclkHz (s : State) : (enterRead s).pclkHz = s.pclkHz := by unfold enterRead; split <;> rfl
@[simp] theorem afterPayload_pclkHz (g : Stage) (s : State) : (afterPayload g s).pclkHz = s.pclkHz := by unfold afterPayload; split <;> first | rfl | exact enterRead_pclkHz s
@[simp] theorem afterBtf_pclkHz (s : State) : (afterBtf s).pclkHz = s.pclkHz := by unfold afterBtf; split <;> first | rfl | exact afterPayload_pclkHz _ s
@[simp] theorem afterMonitor_pclkHz (s : State) : (afterMonitor s).pclkHz = s.pclkHz := by
  unfold afterMonitor pollFlag; repeat' split
  all_goals first | rfl | exact afterBtf_pclkHz (storeSnap s)
@[simp] theorem afterStatusRead_pclkHz (s : State) : (afterStatusRead s).pclkHz = s.pclkHz := by
  unfold afterStatusRead; repeat' split
  all_goals first | rfl | exact afterMonitor_pclkHz s
@[simp] theorem afterClearErr_pclkHz (f : ErrFlag) (s : State) : (afterClearErr f s).pclkHz = s.pclkHz := by unfold afterClearErr; split <;> rfl
@[simp] theorem afterClearBerr_pclkHz (e : Option ErrFlag) (s : State) : (afterClearBerr e s).pclkHz = s.pclkHz := by
  unfold afterClearBerr; split <;> first | rfl | exact afterMonitor_pclkHz s
@[simp] theorem afterSecond_pclkHz (s : State) : (afterSecond s).pclkHz = s.pclkHz := by
  unfold afterSecond; repeat' split
  all_goals rfl
@[simp] theorem afterLatchClear_pclkHz (s : State) : (afterLatchClear s).pclkHz = s.pclkHz := by
  unfold afterLatchClear; repeat' split
  all_goals first | rfl | exact afterPayload_pclkHz _ s
@[simp] theorem afterDrain_pclkHz (s : State) : (afterDrain s).pclkHz = s.pclkHz := by
  unfold afterDrain; repeat' split
  all_goals rfl
@[simp] theorem afterLeave_pclkHz (s : State) : (afterLeave s).pclkHz = s.pclkHz := by
  unfold afterLeave; repeat' split
  all_goals first | rfl | exact afterLatchClear_pclkHz s | exact afterDrain_pclkHz s
@[simp] theorem afterLeaveCtrl_pclkHz (s : State) : (afterLeaveCtrl s).pclkHz = s.pclkHz := by
  unfold afterLeaveCtrl; repeat' split
  all_goals rfl
@[simp] theorem afterCfg_pclkHz (k : CfgStep) (s : State) : (afterCfg k s).pclkHz = s.pclkHz := by cases k <;> rfl
@[simp] theorem advance_pclkHz (s : State) : (advance s).pclkHz = s.pclkHz := by
  unfold advance; repeat' split
  all_goals first | rfl | exact afterCfg_pclkHz _ s | exact afterStatusRead_pclkHz s | exact afterClearErr_pclkHz _ s |
    exact afterClearBerr_pclkHz _ s | exact afterSecond_pclkHz s | exact afterLeave_pclkHz s | exact afterLeaveCtrl_pclkHz s

/-! `host.inputs` -/

@[simp] theorem enterRead_inputs (s : State) : (enterRead s).host.inputs = s.host.inputs := by unfold enterRead; split <;> rfl
@[simp] theorem afterPayload_inputs (g : Stage) (s : State) : (afterPayload g s).host.inputs = s.host.inputs := by unfold afterPayload; split <;> first | rfl | exact enterRead_inputs s
@[simp] theorem afterBtf_inputs (s : State) : (afterBtf s).host.inputs = s.host.inputs := by unfold afterBtf; split <;> first | rfl | exact afterPayload_inputs _ s
@[simp] theorem afterMonitor_inputs (s : State) : (afterMonitor s).host.inputs = s.host.inputs := by
  unfold afterMonitor pollFlag; repeat' split
  all_goals first | rfl | exact afterBtf_inputs (storeSnap s)
@[simp] theorem afterStatusRead_inputs (s : State) : (afterStatusRead s).host.inputs = s.host.inputs := by
  unfold afterStatusRead; repeat' split
  all_goals first | rfl | exact afterMonitor_inputs s
@[simp] theorem afterClearErr_inputs (f : ErrFlag) (s : State) : (afterClearErr f s).host.inputs = s.host.inputs := by unfold afterClearErr; split <;> rfl
@[simp] theorem afterClearBerr_inputs (e : Option ErrFlag) (s : State) : (afterClearBerr e s).host.inputs = s.host.inputs := by
  unfold afterClearBerr; split <;> first | rfl | exact afterMonitor_inputs s
@[simp] theorem afterSecond_inputs (s : State) : (afterSecond s).host.inputs = s.host.inputs := by
  unfold afterSecond; repeat' split
  all_goals rfl
@[simp] theorem afterLatchClear_inputs (s : State) : (afterLatchClear s).host.inputs = s.host.inputs := by
  unfold afterLatchClear; repeat' split
  all_goals first | rfl | exact afterPayload_inputs _ s
@[simp] theorem afterDrain_inputs (s : State) : (afterDrain s).host.inputs = s.host.inputs := by
  unfold afterDrain; repeat' split
  all_goals rfl
@[simp] theorem afterLeave_inputs (s : State) : (afterLeave s).host.inputs = s.host.inputs := by
  unfold afterLeave; repeat' split
  all_goals first | rfl | exact afterLatchClear_inputs s | exact afterDrain_inputs s
@[simp] theorem afterLeaveCtrl_inputs (s : State) : (afterLeaveCtrl s).host.inputs = s.host.inputs := by
  unfold afterLeaveCtrl; repeat' split
  all_goals rfl
@[simp] theorem afterCfg_inputs (k : CfgStep) (s : State) : (afterCfg k s).host.inputs = s.host.inputs := by cases k <;> rfl
@[simp] theorem advance_inputs (s : State) : (advance s).host.inputs = s.host.inputs := by
  unfold advance; repeat' split
  all_goals first | rfl | exact afterCfg_inputs _ s | exact afterStatusRead_inputs s | exact afterClearErr_inputs _ s |
    exact afterClearBerr_inputs _ s | exact afterSecond_inputs s | exact afterLeave_inputs s | exact afterLeaveCtrl_inputs s

/-! `host.program` -/

@[simp] theorem enterRead_program (s : State) : (enterRead s).host.program = s.host.program := by unfold enterRead; split <;> rfl
@[simp] theorem afterPayload_program (g : Stage) (s : State) : (afterPayload g s).host.program = s.host.program := by unfold afterPayload; split <;> first | rfl | exact enterRead_program s
@[simp] theorem afterBtf_program (s : State) : (afterBtf s).host.program = s.host.program := by
  unfold afterBtf; split <;> first | rfl | exact afterPayload_program _ s
@[simp] theorem afterMonitor_program (s : State) : (afterMonitor s).host.program = s.host.program := by
  unfold afterMonitor pollFlag; repeat' split
  all_goals first | rfl | exact afterBtf_program (storeSnap s)
@[simp] theorem afterStatusRead_program (s : State) : (afterStatusRead s).host.program = s.host.program := by
  unfold afterStatusRead; repeat' split
  all_goals first | rfl | exact afterMonitor_program s
@[simp] theorem afterClearErr_program (f : ErrFlag) (s : State) : (afterClearErr f s).host.program = s.host.program := by unfold afterClearErr; split <;> rfl
@[simp] theorem afterClearBerr_program (e : Option ErrFlag) (s : State) : (afterClearBerr e s).host.program = s.host.program := by
  unfold afterClearBerr; split <;> first | rfl | exact afterMonitor_program s
@[simp] theorem afterSecond_program (s : State) : (afterSecond s).host.program = s.host.program := by
  unfold afterSecond; repeat' split
  all_goals rfl
@[simp] theorem afterLatchClear_program (s : State) : (afterLatchClear s).host.program = s.host.program := by
  unfold afterLatchClear; repeat' split
  all_goals first | rfl | exact afterPayload_program _ s
@[simp] theorem afterDrain_program (s : State) : (afterDrain s).host.program = s.host.program := by
  unfold afterDrain; repeat' split
  all_goals rfl
@[simp] theorem afterLeave_program (s : State) : (afterLeave s).host.program = s.host.program := by
  unfold afterLeave; repeat' split
  all_goals first | rfl | exact afterLatchClear_program s | exact afterDrain_program s
@[simp] theorem afterLeaveCtrl_program (s : State) : (afterLeaveCtrl s).host.program = s.host.program := by
  unfold afterLeaveCtrl; repeat' split
  all_goals rfl
@[simp] theorem afterCfg_program (k : CfgStep) (s : State) : (afterCfg k s).host.program = s.host.program := by cases k <;> rfl
@[simp] theorem advance_program (s : State) : (advance s).host.program = s.host.program := by
  unfold advance; repeat' split
  all_goals first | rfl | exact afterCfg_program _ s | exact afterStatusRead_program s | exact afterClearErr_program _ s |
    exact afterClearBerr_program _ s | exact afterSecond_program s | exact afterLeave_program s | exact afterLeaveCtrl_program s

/-! `host.txbuf` -/

@[simp] theorem enterRead_txbuf (s : State) : (enterRead s).host.txbuf = s.host.txbuf := by unfold enterRead; split <;> rfl
@[simp] theorem afterPayload_txbuf (g : Stage) (s : State) : (afterPayload g s).host.txbuf = s.host.txbuf := by unfold afterPayload; split <;> first | rfl | exact enterRead_txbuf s
@[simp] theorem afterBtf_txbuf (s : State) : (afterBtf s).host.txbuf = s.host.txbuf := by unfold afterBtf; split <;> first | rfl | exact afterPayload_txbuf _ s
@[simp] theorem afterMonitor_txbuf (s : State) : (afterMonitor s).host.txbuf = s.host.txbuf := by
  unfold afterMonitor pollFlag; repeat' split
  all_goals first | rfl | exact afterBtf_txbuf (storeSnap s)
@[simp] theorem afterStatusRead_txbuf (s : State) : (afterStatusRead s).host.txbuf = s.host.txbuf := by
  unfold afterStatusRead; repeat' split
  all_goals first | rfl | exact afterMonitor_txbuf s
@[simp] theorem afterClearErr_txbuf (f : ErrFlag) (s : State) : (afterClearErr f s).host.txbuf = s.host.txbuf := by unfold afterClearErr; split <;> rfl
@[simp] theorem afterClearBerr_txbuf (e : Option ErrFlag) (s : State) : (afterClearBerr e s).host.txbuf = s.host.txbuf := by
  unfold afterClearBerr; split <;> first | rfl | exact afterMonitor_txbuf s
@[simp] theorem afterSecond_txbuf (s : State) : (afterSecond s).host.txbuf = s.host.txbuf := by
  unfold afterSecond; repeat' split
  all_goals rfl
@[simp] theorem afterLatchClear_txbuf (s : State) : (afterLatchClear s).host.txbuf = s.host.txbuf := by
  unfold afterLatchClear; repeat' split
  all_goals first | rfl | exact afterPayload_txbuf _ s
@[simp] theorem afterDrain_txbuf (s : State) : (afterDrain s).host.txbuf = s.host.txbuf := by
  unfold afterDrain; repeat' split
  all_goals rfl
@[simp] theorem afterLeave_txbuf (s : State) : (afterLeave s).host.txbuf = s.host.txbuf := by
  unfold afterLeave; repeat' split
  all_goals first | rfl | exact afterLatchClear_txbuf s | exact afterDrain_txbuf s
@[simp] theorem afterLeaveCtrl_txbuf (s : State) : (afterLeaveCtrl s).host.txbuf = s.host.txbuf := by
  unfold afterLeaveCtrl; repeat' split
  all_goals rfl
@[simp] theorem afterCfg_txbuf (k : CfgStep) (s : State) : (afterCfg k s).host.txbuf = s.host.txbuf := by cases k <;> rfl
@[simp] theorem advance_txbuf (s : State) : (advance s).host.txbuf = s.host.txbuf := by
  unfold advance; repeat' split
  all_goals first | rfl | exact afterCfg_txbuf _ s | exact afterStatusRead_txbuf s | exact afterClearErr_txbuf _ s |
    exact afterClearBerr_txbuf _ s | exact afterSecond_txbuf s | exact afterLeave_txbuf s | exact afterLeaveCtrl_txbuf s

/-! ### Runs -/

theorem run_zero (s : State) : run 0 s = .next s := rfl

theorem run_succ {s t : State} (k : Nat) (h : step s = .next t) : run (k + 1) s = run k t := by
  simp [run, h]

/-- A run of `j + k` steps is a run of `k` steps after one of `j`. -/
theorem run_add {j k : Nat} {s t : State} (h : run j s = .next t) : run (j + k) s = run k t := by
  induction j generalizing s with
  | zero => cases h; rw [Nat.zero_add]
  | succ j ih =>
    rw [run] at h
    split at h
    · next t' ht => rw [Nat.succ_add, run_succ _ ht]; exact ih h
    · cases h
    · cases h

/-- With nothing to happen outside, a step of a running command is its next access and what follows. -/
theorem step_of_access {s u : State} {i : Instr} (hin : s.host.inputs = []) (hr : s.running = true)
    (hrow : hasRow s = true) (ha : access s = some i) (hu : exec i s = .next u) : step s = .next (advance u) := by
  simp [step, stepOf, hin, blockStep, hr, commandStep, hrow, ha, hu, andAdvance]

/-- With nothing to happen outside, a configuration step without an access. -/
theorem step_of_internal {s : State} {k : CfgStep} (hin : s.host.inputs = []) (hk : s.fsm = .cfg k)
    (hn : cfgAccess k s.plan = none) : step s = .next (cfgInternal k s) := by
  simp [step, stepOf, hin, blockStep, State.running, hk, commandStep, hasRow, access, hn, internalStep]

end Sys2Proof.Machine
end

