-- ==== Sys2Proof/Tests/Slice0.lean ====
section
/-! SUPPORT. The model's own tests: expected values are those of the tables and vectors of spec/95_test_vectors.md and of
the encodings of spec/30_encoding.md, and the witnesses that meet the hypotheses of the statements. -/

namespace Sys2Proof.Tests

open Sys2Proof.Machine

/-! ### WellFormed -/

theorem test_wellFormed_init : Instr.wellFormed (.init (2 ^ 32) true true) = false := by decide
theorem test_wellFormed_write : Instr.wellFormed (.write 0x50 (2 ^ 16)) = false := by decide
theorem test_wellFormed_read : Instr.wellFormed (.read 0x50 (2 ^ 16)) = false := by decide
theorem test_wellFormed_wrrd_wlen : Instr.wellFormed (.wrrd 0x50 (2 ^ 16) 0) = false := by decide
theorem test_wellFormed_wrrd_rlen : Instr.wellFormed (.wrrd 0x50 0 (2 ^ 16)) = false := by decide
theorem test_wellFormed_reconf : Instr.wellFormed (.reconf (2 ^ 32)) = false := by decide
theorem test_wellFormed_largest :
    Instr.wellFormed (.init (2 ^ 32 - 1) true true) = true ∧ Instr.wellFormed (.wrrd 0x7F (2 ^ 16 - 1) (2 ^ 16 - 1)) = true := by
  decide

/-! ### Decoding: each row's word written out from 30_encoding.md R92, R93, R95, R102 (table DE for the commands) -/

theorem test_decode_INIT : decodeTableWord 64 0x01000001000186A0 = some (.init 100000 true false) := rfl
theorem test_decode_WRITE : decodeTableWord 64 0x027FFFFF00000000 = some (.write 0x7F 65535) := rfl
theorem test_decode_READ : decodeTableWord 64 0x0348000000020000 = some (.read 0x48 2) := rfl
theorem test_decode_WRRD : decodeTableWord 64 0x0468000100020000 = some (.wrrd 0x68 1 2) := rfl
theorem test_decode_RECONF : decodeTableWord 64 0x0500000000061A80 = some (.reconf 400000) := rfl
theorem test_decode_aborting :
    decodeTableWord 64 0x06FFFFFFFFFFFFFF = some .xiter ∧ decodeTableWord 64 0x0700000000000000 = some .xact := ⟨rfl, rfl⟩
theorem test_decode_reads :
    decodeTableWord 40 0x1400000000 = some .pRdStat1 ∧ decodeTableWord 40 0x1800000000 = some .pRdStat2 ∧
    decodeTableWord 40 0x0000000000 = some .pRdCtrl1 ∧ decodeTableWord 40 0x1000000000 = some .pRdData :=
  ⟨rfl, rfl, rfl, rfl⟩
theorem test_decode_write : decodeTableWord 40 0x50FFFF00A5 = some (.pWrData 0xA5) := rfl
theorem test_decode_ctrl1 :
    decodeTableWord 40 0x8001000100 = some .pSetStart ∧ decodeTableWord 40 0x8005000500 = some .pSetStartAck ∧
    decodeTableWord 40 0x8006000200 = some .pNackStop ∧ decodeTableWord 40 0x8002000200 = some .pSetStop ∧
    decodeTableWord 40 0x8000010000 = some .pPeOff ∧ decodeTableWord 40 0x8000010001 = some .pPeOn :=
  ⟨rfl, rfl, rfl, rfl, rfl, rfl⟩
theorem test_decode_clock :
    decodeTableWord 40 0x84003F0024 = some (.pWrFreq 36) ∧
    decodeTableWord 40 0x9CCFFF801E = some (.pWrCcr true false 30) ∧
    decodeTableWord 40 0x9CCFFF4FFF = some (.pWrCcr false true 0xFFF) ∧
    decodeTableWord 40 0xA0003F0033 = some (.pWrTrise 51) :=
  ⟨rfl, rfl, rfl, rfl⟩
theorem test_decode_clears :
    decodeTableWord 40 0xD440000000 = some .pClrTimeout ∧ decodeTableWord 40 0xD410000000 = some .pClrPecerr ∧
    decodeTableWord 40 0xD408000000 = some .pClrOvr ∧ decodeTableWord 40 0xD404000000 = some .pClrAf ∧
    decodeTableWord 40 0xD402000000 = some .pClrArlo ∧ decodeTableWord 40 0xD401000000 = some .pClrBerr :=
  ⟨rfl, rfl, rfl, rfl, rfl, rfl⟩
/-- Illegal descriptors of table DE: opcode 0x08, and a non-zero reserved or must-be-zero field. -/
theorem test_decode_illegal :
    decodeDescriptor 0x0800000000000000 = .error .illegalOpcode ∧
    decodeDescriptor 0xFF00000000000000 = .error .illegalOpcode ∧
    decodeDescriptor 0x0250000200000001 = .error .reservedField ∧
    decodeDescriptor 0x0350000100020000 = .error .reservedField ∧
    decodeDescriptor 0x0500000100061A80 = .error .reservedField := ⟨rfl, rfl, rfl, rfl, rfl⟩
/-- A write to `STAT2`, a whole-register write to `CTRL1`, a read of `CCR`: no micro-operations (R102). -/
theorem test_decode_no_micro_op :
    decodeRecord 0x58FFFF0000 = .error .notAMicroOp ∧ decodeRecord 0x40FFFF0000 = .error .notAMicroOp ∧
    decodeRecord 0x1C00000000 = .error .notAMicroOp := ⟨rfl, rfl, rfl⟩
theorem test_decodeBytes :
    decodeBytes [0x00, 0x00, 0x02, 0x00, 0x00, 0x00, 0x48, 0x03] = .ok (.read 0x48 2) ∧
    decodeBytes [0x00, 0x00, 0x00, 0x04, 0xD4] = .ok .pClrAf ∧ decodeBytes [0] = .error .wrongLength := ⟨rfl, rfl, rfl⟩
theorem test_encode_init : encode (.init 100000 true false) = .descriptor 0x01000001000186A0 := rfl
theorem test_encode_wrCcr : encode (.pWrCcr true true 3) = .record 0x9CCFFFC003 := rfl

/-! ### The address byte (table AB), the images and the calculator (tables TC, TF, TU) -/

theorem test_addrByte : addrByte 0x50 false = 0xA0 ∧ addrByte 0x50 true = 0xA1 ∧ addrByte 0x7F true = 0xFF := by decide
theorem test_ccrImage : ccrImage false false 180 = 0x00B4 ∧ ccrImage true false 30 = 0x801E ∧ ccrImage true true 3 = 0xC003 := by
  decide
theorem test_tcalc_TC3 :
    tcalc 36000000 100000 = .ok { divisor := 36, mode := .standard, duty := .duty2_1, ccr := 180, trise := 37 } := rfl
theorem test_tcalc_TC23 :
    tcalc 8000000 100001 = .ok { divisor := 8, mode := .fast, duty := .duty2_1, ccr := 26, trise := 3 } := rfl
theorem test_tcalc_TC14 :
    tcalc 2000000 1000000 = .ok { divisor := 2, mode := .fast, duty := .duty2_1, ccr := 1, trise := 1 } := rfl
theorem test_tcalc_TF : tcalc 51000000 0 = .error .divisorRange ∧ tcalc 36000000 0 = .error .targetZero := ⟨rfl, rfl⟩
theorem test_tcalc_TU1 : (tcalcWith .duty16_9 36000000 400000).toOption.map Timings.ccr = some 3 := rfl
theorem test_ccrTooWide : ccrTooWide 50000000 6104 = false ∧ ccrTooWide 50000000 6103 = true := ⟨rfl, rfl⟩

/-! ### The monitor (table EF) -/

theorem test_firstError :
    firstError 0x0482 = some .af ∧ firstError 0x0C00 = some .ovr ∧ firstError 0x1A00 = some .pecerr ∧
    firstError 0x0300 = some .arlo ∧ firstError 0x5FC7 = some .timeout ∧ firstError 0xA138 = none := by decide

/-! ### Text forms (30_encoding.md R101, R110, R111) -/

theorem test_commandText : commandText [0xAA, 0x55] (.write 0x50 2) = some "WRITE 50, [AA, 55]" := rfl
theorem test_eventText : eventText (.port 0x1400000000 (some 0x0402)) = some "R STAT1 -> 0x0402" := rfl
theorem test_expandSurface : expandSurface (.writeThenRead 0x3C 1 2) = .wrrd 0x3C 1 2 := rfl

/-! ### Small states -/

/-- The timings of the sequencer vectors (spec/95_test_vectors.md 2.5). -/
def timings : Timings := { divisor := 8, mode := .standard, duty := .duty2_1, ccr := 40, trise := 9 }

/-- A peripheral that holds those timings, enabled, with acknowledge. -/
def per : Periph := { Periph.reset with ctrl1 := 0x0401, ctrl2 := 0x0008, ccr := 0x0028, trise := 0x0009 }

/-- An idle, constructed block whose environment will answer `as`. -/
def ready (as : List Word) : State :=
  { State.reset with
    constructed := true, timings := some timings, config := some { sdaPullup := true, sclPullup := true }, per := per,
    pclkHz := 8000000, env := { answers := as, drawn := 0 },
    host := { txbuf := [(0, 0xAA)], rxbuf := [], program := [], inputs := [] } }

/-- An idle block before construction. -/
def fresh : State := { State.reset with env := { answers := [0, 0, 0, 0, 0, 0, 0, 0], drawn := 0 } }

/-- That block about to perform sub-step `g` of state `f`. -/
def at' (op : Op) (p : Phase) (f : Fsm) (g : Stage) (w n : Nat) (as : List Word) : State :=
  { ready as with op := op, phase := p, fsm := f, stage := g, addr7 := 0x50, wlen := w, rlen := n }

/-- The next state of an answer, if it has one. -/
def next? : Answer → Option State
  | .next s => some s
  | _ => none

/-! ### One instruction or one step each -/

theorem test_exec_pSetStartAck : (next? (exec .pSetStartAck (ready []))).map (fun t => t.per.ctrl1) = some 0x0501 := by decide
theorem test_exec_pSetStart : (next? (exec .pSetStart (ready []))).map (fun t => t.per.ctrl1) = some 0x0501 := by decide
theorem test_exec_pNackStop : (next? (exec .pNackStop (ready []))).map (fun t => t.per.ctrl1) = some 0x0201 := by decide
theorem test_exec_pSetStop : (next? (exec .pSetStop (ready []))).map (fun t => t.per.ctrl1) = some 0x0601 := by decide
theorem test_exec_pPeOff : (next? (exec .pPeOff (ready []))).map (fun t => t.per.ctrl1) = some 0x0400 := by decide
theorem test_exec_pPeOn : (next? (exec .pPeOn fresh)).map (fun t => t.per.ctrl1) = some 0x0001 := by decide
theorem test_exec_pWrData : (next? (exec (.pWrData 0xA0) (ready []))).map (fun t => t.per.data) = some 0x00A0 := by decide
theorem test_exec_pWrFreq : (next? (exec (.pWrFreq 36) (ready []))).map (fun t => t.per.ctrl2) = some 0x0024 := by decide
theorem test_exec_pWrCcr : (next? (exec (.pWrCcr true false 30) (ready []))).map (fun t => t.per.ccr) = some 0x801E := by decide
theorem test_exec_pWrTrise : (next? (exec (.pWrTrise 11) (ready []))).map (fun t => t.per.trise) = some 0x000B := by decide
/-- Sticky flags stay in the answer of a status read, progress flags do not (20_memory.md R71). -/
theorem test_exec_pRdStat1 :
    (next? (exec .pRdStat1 { ready [0x0080] with per := { per with stat1 := 0x0401 } })).map (fun t => t.rdata) =
      some 0x0480 := by decide
/-- `STAT1` with `ADDR`, then `STAT2`: the latch is cleared (20_memory.md R76). -/
theorem test_exec_pRdStat2 :
    ((next? (exec .pRdStat1 (ready [0x0082, 0x0003]))).bind fun t => next? (exec .pRdStat2 t)).map
      (fun t => t.per.stat1) = some 0x0080 := by decide
theorem test_exec_pRdData :
    (next? (exec .pRdData { ready [0x1234] with per := { per with stat1 := 0x00C0 } })).map
      (fun t => (t.rdata, t.per.stat1)) = some (0x1234, 0x0080) := by decide
theorem test_exec_pRdCtrl1 :
    (next? (exec .pRdCtrl1 { ready [0x0000] with per := { per with ctrl1 := 0x0601 } })).map
      (fun t => (t.rdata, t.per.ctrl1)) = some (0x0401, 0x0401) := by decide
/-- Every clear clears its own flag (table EF). -/
theorem test_exec_clears :
    [Instr.pClrTimeout, .pClrPecerr, .pClrOvr, .pClrAf, .pClrArlo, .pClrBerr].map
      (fun i => (next? (exec i { ready [] with per := { per with stat1 := 0x5FC7 } })).map fun t => t.per.stat1) =
      [some 0x1FC7, some 0x4FC7, some 0x57C7, some 0x5BC7, some 0x5DC7, some 0x5EC7] := by decide
theorem test_exec_write : (next? (exec (.write 0x50 1) (ready []))).map (fun t => (t.fsm, t.phase, t.wlen)) = some (.start, .wr, 1) := by
  decide
/-- SQ4: no bus activity. -/
theorem test_exec_read_empty :
    (next? (exec (.read 0x48 0) (ready []))).map (fun t => (t.fsm, t.result, t.trace)) = some (.idle, some .overrun, []) := by
  decide
theorem test_exec_wrrd : (next? (exec (.wrrd 0x3C 1 2) (ready []))).map (fun t => (t.op, t.wlen, t.rlen)) = some (.wrrd, 1, 2) := by
  decide
theorem test_exec_reconf : (next? (exec (.reconf 400000) (ready []))).map (fun t => (t.fsm, t.freq)) = some (.cfg .g1, 400000) := by
  decide
theorem test_exec_init : (next? (exec (.init 100000 true false) fresh)).map (fun t => (t.fsm, t.pull)) =
    some (.cfg .c1, { sdaPullup := false, sclPullup := true }) := by decide
theorem test_exec_aborting :
    (next? (exec .xiter fresh)).map (fun t => t.fsm) = some (.halt .unimplemented) ∧
    (next? (exec .xact (ready []))).map (fun t => t.fsm) = some (.halt .unimplemented) := by decide
/-- A received byte is stored at its index. -/
theorem test_step_drain :
    (next? (step (at' .read .rd .rxne .leave 0 2 [0x1234]))).map (fun t => (t.host.rxbuf.read 0, t.stage)) =
      some (0x34, .leaveCtrl) := by decide
/-- S4: an address-phase `AF` ends the command. -/
theorem test_step_nack :
    (next? (run 2 (at' .write .wr .addr .monitor 1 0 [0x0400]))).map (fun t => (t.fsm, t.result, t.per.stat1)) =
      some (.idle, some .nack, 0) := by decide

/-- The environment clears `STOP` and raises `TXE` between two steps of the block, and cannot change `PE` or `ACK`, set
`STOP` or clear `AF` (10_state.md R41; 20_memory.md R71). -/
theorem test_step_environment :
    (next? (step (withInputs [.environment .ctrl1 0x0200] { ready [] with per := { per with ctrl1 := 0x0401 } }))).map
      (fun t => t.per.ctrl1) = some 0x0401 ∧
    (next? (step (withInputs [.environment .ctrl1 0x0000] { ready [] with per := { per with ctrl1 := 0x0601 } }))).map
      (fun t => t.per.ctrl1) = some 0x0401 ∧
    (next? (step (withInputs [.environment .stat1 0x0080] { ready [] with per := { per with stat1 := 0x0401 } }))).map
      (fun t => t.per.stat1) = some 0x0480 := by decide
/-- An aborting opcode while a command runs is refused (60_exceptions.md R225 `Busy`). -/
theorem test_step_xiter_busy :
    step (withInputs [.offer { desc := 0x0600000000000000, tx := [], rx := [] }] (at' .write .wr .start .monitor 1 0 [])) =
      .refused .busy := rfl

/-! ### Witnesses: states and operands that meet the hypotheses of the statements -/

/-- A command of descriptor `d`. -/
def cmd (d : Descriptor) : HostCmd := { desc := d, tx := [], rx := [] }

theorem witness_DecodeOfEncode :
    Instr.wellFormed (.wrrd 0x7F 65535 65535) = true ∧ Instr.wellFormed (.pWrCcr true true 0xFFF) = true := by decide
theorem witness_EncodeOfDecodedDescriptor :
    decodeDescriptor 0x047FFFFFFFFF0000 = .ok (.wrrd 0x7F 65535 65535) ∧ decodeDescriptor 0x0600000000000001 = .ok .xiter :=
  ⟨rfl, rfl⟩
theorem witness_EncodeOfDecodedRecord : decodeRecord 0x9CCFFFCFFF = .ok (.pWrCcr true true 0xFFF) := rfl
theorem witness_DescriptorFields :
    decodeDescriptor 0x01000003FFFFFFFF = .ok (.init 4294967295 true true) ∧
    decodeDescriptor 0x027FFFFF00000000 = .ok (.write 0x7F 65535) ∧
    decodeDescriptor 0x037F0000FFFF0000 = .ok (.read 0x7F 65535) ∧
    decodeDescriptor 0x0400000000000000 = .ok (.wrrd 0 0 0) ∧
    decodeDescriptor 0x05000000FFFFFFFF = .ok (.reconf 4294967295) := ⟨rfl, rfl, rfl, rfl, rfl⟩
theorem witness_IllegalOpcodes :
    ((cmd 0x00FFFFFFFFFFFFFF).desc.toNat / 2 ^ 56 = 0) ∧ (8 ≤ (cmd 0x0800000000000000).desc.toNat / 2 ^ 56) ∧
    (8 ≤ (cmd 0xFFFFFFFFFFFFFFFF).desc.toNat / 2 ^ 56) ∧ (ready []).fsm = .idle := by decide
theorem witness_ReservedFields_1_2 :
    (0x0100000400000000#64).toNat / 2 ^ 56 = 1 ∧ (0x0100000400000000#64).toNat / 2 ^ 34 % 2 ^ 22 ≠ 0 ∧
    (0x0280000000000000#64).toNat / 2 ^ 56 = 2 ∧ (0x0280000000000000#64).toNat / 2 ^ 55 % 2 ≠ 0 ∧
    (0x0200000000010000#64).toNat / 2 ^ 16 % 2 ^ 16 ≠ 0 ∧ (0x0200000000000001#64).toNat % 2 ^ 16 ≠ 0 := by decide
theorem witness_ReservedFields_3_4_5 :
    (0x0300000100000000#64).toNat / 2 ^ 56 = 3 ∧ (0x0300000100000000#64).toNat / 2 ^ 32 % 2 ^ 16 ≠ 0 ∧
    (0x0480000000000000#64).toNat / 2 ^ 56 = 4 ∧ (0x0480000000000000#64).toNat / 2 ^ 55 % 2 ≠ 0 ∧
    (0x0500000100000000#64).toNat / 2 ^ 56 = 5 ∧ (0x0500000100000000#64).toNat / 2 ^ 32 % 2 ^ 2 ≠ 0 ∧
    (0x0500000400000000#64).toNat / 2 ^ 34 % 2 ^ 22 ≠ 0 := by decide
theorem witness_TcalcRecord : (2 : Nat) ≤ 2000000 / 1000000 ∧ 50999999 / 1000000 ≤ 50 := by decide
theorem witness_TcalcBounds :
    (tcalc 50999999 100000).toOption.isSome = true ∧ (tcalc 2000000 100001).toOption.isSome = true ∧
    (tcalcWith .duty16_9 2000000 100001).toOption.isSome = true ∧ 2000000 < 100001 * 25 ∧
    (tcalc 2000000 666667).toOption.map Timings.ccr = some 1 ∧ 2000000 < 666667 * 3 ∧
    (tcalc 2000000 666666).toOption.map Timings.ccr = some 1 ∧ ¬ 2000000 < 666666 * 3 :=
  ⟨rfl, rfl, rfl, by decide, rfl, by decide, rfl, by decide⟩
theorem witness_TcalcMonotone :
    (tcalc 8000000 1).toOption.isSome = true ∧ (tcalc 8000000 100000).toOption.isSome = true ∧
    (tcalc 8000000 4000000).toOption.isSome = true ∧
    (tcalc 2000000 100000).toOption.map Timings.ccr = some 10 ∧ (tcalc 2000000 100001).toOption.map Timings.ccr = some 6 ∧
    (tcalc 50999999 100000).toOption.map Timings.ccr = some 254 ∧
    (tcalc 50999999 100001).toOption.map Timings.ccr = some 169 := ⟨rfl, rfl, rfl, rfl, rfl, rfl, rfl⟩
theorem witness_MicroOpFrame : Instr.isPort (.pWrData 0xFF) = true ∧ Instr.isPort .pRdStat1 = true := by decide
theorem witness_TransfersAccepted : (ready []).fsm = .idle ∧ (ready []).constructed = true := by decide
/-- At the least `ccr` that fits and at the largest target. -/
theorem witness_ConfigurationAccepted :
    fresh.fsm = .idle ∧ fresh.constructed = false ∧ (ready []).constructed = true ∧
    (tcalc fresh.pclkHz 1431655765).toOption.map Timings.ccr = some 1 ∧
    (tcalc (ready []).pclkHz 977).toOption.map Timings.ccr = some 4094 := ⟨rfl, rfl, rfl, rfl, rfl⟩
theorem witness_AbortingOpcodes : (ready []).fsm = .idle ∧ fresh.fsm = .idle := by decide
theorem witness_Refusals_lifecycle :
    fresh.fsm = .idle ∧ fresh.constructed = false ∧ (ready []).constructed = true ∧
    (at' .read .rd .rxne .monitor 0 1 []).fsm ≠ .idle ∧ (raiseFatal .targetZero fresh).fsm = .halt .targetZero := by decide
theorem witness_Refusals_operand :
    (tcalc 8000000 976).toOption.map Timings.ccr = some 4098 ∧ 1431655765 < 1431655766 := ⟨rfl, by decide⟩
theorem witness_Refusals_inputs :
    (withInputs [.foreign .ctrl1 0] (ready [])).host.inputs = [.foreign .ctrl1 0] ∧
    (withInputs [.hostWrite 0 1] (at' .read .rd .rxne .monitor 0 1 [])).host.inputs = [.hostWrite 0 1] ∧
    (withInputs [.hostRead] (at' .read .rd .rxne .monitor 0 1 [])).host.inputs = [.hostRead] ∧
    (∀ r, (at' .read .rd .rxne .monitor 0 1 []).fsm ≠ .halt r) :=
  ⟨rfl, rfl, rfl, fun r => by cases r <;> decide⟩
theorem witness_Refusals_illegal :
    (at' .read .rd .rxne .monitor 0 1 []).fsm ≠ .idle ∧ decodeDescriptor (cmd 0x0800000000000000).desc = .error .illegalOpcode :=
  ⟨by decide, rfl⟩
theorem witness_FlagClears : hasBit (at' .write .wr .start .monitor 1 0 [0x0400]).env.answer 10 = true := by decide
theorem witness_StepRunsOfferedCommand :
    decodeDescriptor (cmd 0x0348000000020000).desc = .ok (.read 0x48 2) ∧
    (withInputs [.offer (cmd 0x0348000000020000)] (ready [])).host.inputs = [.offer (cmd 0x0348000000020000)] ∧
    (ready []).host.inputs = [] ∧ (ready []).fsm = .idle := ⟨rfl, rfl, rfl, rfl⟩
/-- The first illegal opcode, offered to an idle and to a running block, and waiting with the host. -/
theorem witness_StepRunsOfferedCommand_illegal :
    decodeDescriptor (cmd 0x0800000000000000).desc = .error .illegalOpcode ∧
    (withInputs [.offer (cmd 0x0800000000000000)] (ready [])).host.inputs = [.offer (cmd 0x0800000000000000)] ∧
    (at' .read .rd .rxne .monitor 0 1 []).fsm ≠ .idle := ⟨rfl, rfl, by decide⟩
theorem witness_StepRunsNextAccess :
    (at' .write .wr .txe .leave 1 0 []).host.inputs = [] ∧ (at' .write .wr .txe .leave 1 0 []).running = true ∧
    hasRow (at' .write .wr .txe .leave 1 0 []) = true ∧
    access (at' .write .wr .txe .leave 1 0 []) = some (.pWrData 0xAA) ∧
    encode (.pWrData 0xAA) = .record 0x50FFFF00AA ∧ (ready []).host.txbuf.wf = true := by decide
theorem witness_ResetInput :
    (withInputs [.reset per] (ready [])).host.inputs = .reset per :: [] ∧
    (withInputs [.environment .ctrl1 0xFFFF] (ready [])).host.inputs = .environment .ctrl1 0xFFFF :: [] ∧
    fresh.constructed = false ∧ (withInputs [.foreign .ctrl1 0] fresh).host.inputs = .foreign .ctrl1 0 :: [] ∧
    (ready []).running = false ∧ (ready []).host.txbuf.wf = true ∧
    (withInputs [.hostWrite 0 0] (ready [])).host.inputs = .hostWrite 0 0 :: [] ∧
    (withInputs [.hostRead] (ready [])).host.inputs = .hostRead :: [] := by decide
theorem witness_StartRequest :
    standsAt .start .request (at' .write .wr .start .request 1 0 []) ∧
    standsAt .start .request (at' .read .rd .start .request 0 1 []) := ⟨⟨rfl, rfl, rfl⟩, ⟨rfl, rfl, rfl⟩⟩
/-- The awaited flag 1 in the first and 0 in the second, and the places of the `BTF` row. -/
theorem witness_FlagPolls :
    calm ((at' .write .wr .start .monitor 1 0 [0x0001]).readValue .stat1) = true ∧
    hasBit ((at' .write .wr .start .monitor 1 0 [0x0001]).readValue .stat1) 8 = false ∧
    calm ((at' .wrrd .wr .btf .monitor 1 0 [0xA0FB]).readValue .stat1) = true ∧
    (at' .wrrd .wr .btf .monitor 1 0 [0xA0FB]).idx + 1 = 1 ∧ (at' .write .wr .btf .monitor 2 0 []).idx + 1 < 2 ∧
    (at' .read .rd .rxne .monitor 0 1 []).idx < 1 := by decide
/-- Without and with `BERR` in the status word, which shows every progress flag. -/
theorem witness_MasterAndStopPolls_monitor :
    (at' .write .wr .master .monitor 1 0 [0xA0FF]).readValue .stat1 = 0xA0FF ∧ calm 0xA0FF = true ∧
    hasBit 0xA0FF 8 = false ∧ (at' .write .wr .stop .monitor 1 0 [0xA1FF]).readValue .stat1 = 0xA1FF ∧
    calm 0xA1FF = true ∧ hasBit 0xA1FF 8 = true := by decide
theorem witness_MasterAndStopPolls :
    standsAt .master .second (at' .write .wr .master .second 1 0 [3]) ∧
    standsAt .stop .second (at' .write .wr .stop .second 1 0 [0]) := ⟨⟨rfl, rfl, rfl⟩, ⟨rfl, rfl, rfl⟩⟩
theorem witness_AddressByteSent : standsAt .master .leave (at' .write .wr .master .leave 1 0 []) := ⟨rfl, rfl, rfl⟩
theorem witness_LatchClearRow :
    standsAt .addrclr .leave (at' .write .wr .addrclr .leave 0 0 [0]) ∧ (at' .wrrd .wr .addrclr .leave 0 1 [0]).wlen = 0 ∧
    (at' .write .wr .addrclr .leave 1 0 [0]).wlen = 1 ∧ 2 ≤ (at' .read .rd .addrclr .leave 0 2 [0]).rlen ∧
    (at' .read .rd .addrclr .leave 0 1 [0]).rlen = 1 := ⟨⟨rfl, rfl, rfl⟩, by decide⟩
theorem witness_PayloadByteSent : standsAt .txe .leave (at' .write .wr .txe .leave 1 0 []) := ⟨rfl, rfl, rfl⟩
theorem witness_StopRequests :
    standsAt .btf .leave (at' .write .wr .btf .leave 1 0 []) ∧
    standsAt .addrclr .leaveCtrl (at' .write .wr .addrclr .leaveCtrl 0 0 []) ∧
    standsAt .addrclr .leaveCtrl (at' .read .rd .addrclr .leaveCtrl 0 1 []) ∧
    standsAt .rxne .leaveCtrl (at' .read .rd .rxne .leaveCtrl 0 2 []) :=
  ⟨⟨rfl, rfl, rfl⟩, ⟨rfl, rfl, rfl⟩, ⟨rfl, rfl, rfl⟩, ⟨rfl, rfl, rfl⟩⟩
/-- The last, the last but one and an earlier byte. -/
theorem witness_DrainRow :
    standsAt .rxne .leave (at' .read .rd .rxne .leave 0 1 [0]) ∧ (at' .read .rd .rxne .leave 0 1 [0]).idx + 1 = 1 ∧
    (at' .read .rd .rxne .leave 0 2 [0]).idx + 2 = 2 ∧ (at' .read .rd .rxne .leave 0 3 [0]).idx + 2 < 3 ∧
    (at' .read .rd .rxne .leave 0 3 [0]).host.rxbuf.wf = true := ⟨⟨rfl, rfl, rfl⟩, by decide⟩
/-- One status word for each of the five flags, with every later flag set as well; with and without `BERR`. -/
theorem witness_MonitorReportsFirstError :
    pollRow (at' .write .wr .start .monitor 1 0 [0x5F00]) = true ∧
    (at' .write .wr .start .monitor 1 0 [0x5F00]).readValue .stat1 = 0x5F00 ∧ hasBit 0x5F00 14 = true ∧
    hasBit 0x1E00 14 = false ∧ hasBit 0x1E00 12 = true ∧ hasBit 0x0E00 12 = false ∧ hasBit 0x0E00 11 = true ∧
    hasBit 0x0600 11 = false ∧ hasBit 0x0600 10 = true ∧ hasBit 0x0200 10 = false ∧ hasBit 0x0200 9 = true := by decide
theorem witness_MonitorSwallowsBusError :
    pollRow (at' .write .wr .addr .monitor 1 0 [0x0101]) = true ∧
    (at' .write .wr .addr .monitor 1 0 [0x0101]).readValue .stat1 = 0x0101 ∧ calm 0x0101 = true ∧
    hasBit 0x0101 8 = true ∧ calm 0xA0FF = true ∧ hasBit 0xA0FF 8 = false := by decide
theorem witness_InitRun :
    fresh.fsm = .idle ∧ fresh.constructed = false ∧ fresh.host.inputs = [] ∧
    tcalc fresh.pclkHz 100000 = .ok { divisor := 36, mode := .standard, duty := .duty2_1, ccr := 180, trise := 37 } :=
  ⟨rfl, rfl, rfl, rfl⟩
theorem witness_ConfigurationFatal :
    tcalc fresh.pclkHz 0 = .error .targetZero ∧ tcalc 1999999 100000 = .error .divisorRange ∧
    (ready []).host.inputs = [] ∧ tcalc (ready []).pclkHz 0 = .error .targetZero := ⟨rfl, rfl, rfl, rfl⟩
theorem witness_ReconfRun :
    tcalc (ready []).pclkHz 400000 = .ok { divisor := 8, mode := .fast, duty := .duty2_1, ccr := 6, trise := 3 } := rfl
theorem witness_FaultFreeWrite :
    cleanStatus (ready []) = true ∧
    metBy (wantsWrite 1) [0x0001, 0x0000, 0x0003, 0x0002, 0x0000, 0x0080, 0x0084, 0x0000, 0x0000] = true ∧
    metBy (wantsWrite 0) [0x0001, 0x0000, 0x0003, 0x0002, 0x0000, 0x0000, 0x0000] = true := by decide
theorem witness_FaultFreeRead :
    (ready []).host.rxbuf.wf = true ∧
    metBy (wantsRead [0x12]) [0x0001, 0x0000, 0x0003, 0x0002, 0x0000, 0x0040, 0x0012, 0x0000, 0x0000] = true := by decide
theorem witness_FaultFreeWrrd :
    metBy (wantsWrrd 0 [0x12])
      [0x0001, 0x0000, 0x0003, 0x0002, 0x0000, 0x0001, 0x0000, 0x0003, 0x0002, 0x0000, 0x0040, 0x0012, 0x0000, 0x0000] =
      true := by decide
theorem witness_EmptyReadBuffer :
    (ready []).fsm = .idle ∧ (ready []).constructed = true ∧
    metBy (wantsStart ++ wantsPayload 0) [0x0001, 0x0000, 0x0003, 0x0002, 0x0000] = true := by decide
theorem witness_PollsCanHang : [Fsm.start, .master, .addr, .txe, .btf, .rxne, .stop].all Fsm.polls = true := by decide
/-- A place of a running command that meets every invariant together, and a step from it. -/
theorem witness_invariants :
    let s := at' .read .rd .rxne .leave 0 2 [0x1234]
    let t : State := { s with
      snap := 0x0040
      trace := [.port 0x1400000000 (some 0x0040), .port (packP 1 0x10 0xFFFF 0x00A1) none] }
    seqOk t = true ∧ countsOk t = true ∧ exitOk t = true ∧ lifecycleOk t = true ∧ timingsOk t = true ∧ clockOk t = true ∧
      undisturbed t = true ∧ peOk t = true ∧ peOffOk t = true ∧ ackOk t = true ∧ resultOk t = true ∧ memoryOk t = true ∧
      (next? (step t)).isSome = true := by decide
/-- The places of `exitOk` before a repeated START (with and without a payload) and before the `r9` after a drain. -/
theorem witness_ExitInvariant :
    let status := fun v : Word => Event.port 0x1400000000 (some v)
    let start := { at' .wrrd .rd .start .request 1 1 [] with snap := 0x0084, trace := [status 0x0084] }
    let bare := { at' .wrrd .rd .start .request 0 1 [] with trace := [.port 0x1800000000 (some 3), status 0x0002] }
    let drained := { at' .read .rd .rxne .leaveCtrl 0 2 [] with
      snap := 0x0040, trace := [.port 0x1000000000 (some 0x1234), status 0x0040] }
    [start, bare, drained].all (fun s => seqOk s && exitOk s && (next? (step s)).isSome) = true ∧
      exitOk (at' .wrrd .rd .start .request 1 1 []) = false ∧ exitOk (at' .write .wr .start .request 1 0 []) = true := by
  decide
theorem witness_HaltIsLeftByResetOnly :
    (raiseFatal .targetZero fresh).fsm = .halt .targetZero ∧ (next? (step (raiseFatal .targetZero fresh))).isSome = true ∧
    (next? (step (withInputs [.reset per] (raiseFatal .targetZero fresh)))).map (fun t => t.fsm) = some .idle := by decide
/-- The end of `INIT`, the end of `RECONF`, and a reset. -/
theorem witness_HandleWriters :
    (next? (step { fresh with fsm := .cfg .c10, plan := timings })).map (fun t => t.timings) = some (some timings) ∧
    (next? (step { ready [] with fsm := .cfg .g4, plan := timings })).map (fun t => t.timings) = some (some timings) ∧
    (next? (step (withInputs [.reset per] (ready [])))).map (fun t => t.timings) = some none := by decide
theorem witness_TransfersIgnoreTimings :
    (at' .write .wr .txe .leave 1 0 []).running = true ∧ (∀ k, (at' .write .wr .txe .leave 1 0 []).fsm ≠ .cfg k) ∧
    (next? (step (at' .write .wr .txe .leave 1 0 []))).isSome = true := by
  exact ⟨by decide, fun k => by cases k <;> decide, by decide⟩

end Sys2Proof.Tests
end

section
/-! PROOF. A step that is offered a command (00_scope.md R5; 30_encoding.md R91, R95, R103; 60_exceptions.md R225). Each
of the three ways to offer a descriptor is reduced to `offer` at the state from which the offer was taken
(`step_of_offer`, `step_of_program`, `step_withFetchWord_descriptor`); what `offer` then does is said by `offer_legal`
and `offer_illegal`. -/

namespace Sys2Proof.Machine

/-- A descriptor that selects a command, offered (30_encoding.md R95). -/
theorem offer_legal {c : HostCmd} {i : Instr} (h : decodeDescriptor c.desc = .ok i) (s : State) :
    offer c s = exec i (receive i c s) := by
  simp [offer, h]

/-- A command offered from outside. -/
theorem step_of_offer {s : State} {c : HostCmd} {xs : List Input} (h : s.host.inputs = .offer c :: xs) :
    step s = offer c (withInputs xs s) := by
  simp [step, stepOf, h, inputStep]

/-- An idle block, with nothing to happen outside, is offered the waiting host's next command (log 13). -/
theorem step_of_program {s : State} {c : HostCmd} {cs : List HostCmd} (hin : s.host.inputs = [])
    (hf : s.fsm = .idle) (hp : s.host.program = c :: cs) :
    step s = offer c { s with host := { s.host with program := cs } } := by
  simp [step, stepOf, hin, blockStep, State.running, hf, hostIssues, hp]

/-- A descriptor placed with `withFetchWord` is offered to the state it was placed in, which has not changed. -/
theorem step_withFetchWord_descriptor (s : State) (d : Descriptor) :
    step (s.withFetchWord 64 d.toNat) = offer { desc := d, tx := s.host.txbuf, rx := s.host.rxbuf } s := by
  have hw : s.withFetchWord 64 d.toNat = offering d s := by simp [State.withFetchWord]
  rw [hw]
  exact step_of_offer rfl

/-- Settles O26: each way to offer a descriptor is `offer`, which executes a legal command and answers an illegal one by
the state of the block. -/
theorem stepRunsOfferedCommand : Obligations.StepRunsOfferedCommand := by
  refine ⟨fun s c i hd => ⟨fun xs hin => ?_, fun cs hin hf hp => ?_, ?_⟩,
    fun s c i => ⟨fun hf => ?_, fun hf => receive_busy hf i c⟩,
    fun s c hd => ⟨fun xs hin => ?_, fun cs hin hf hp => ?_, ?_⟩⟩
  · rw [step_of_offer hin, offer_legal hd]
  · rw [step_of_program hin hf hp, offer_legal hd]
  · rw [step_withFetchWord_descriptor]
    exact offer_legal (c := { desc := c.desc, tx := s.host.txbuf, rx := s.host.rxbuf }) hd s
  · refine ⟨(lentFor i c s.host).txbuf, (lentFor i c s.host).rxbuf, ?_, ?_, ?_⟩
    · rw [receive_idle hf]
      cases i <;> rfl
    · cases i <;> rfl
    · cases i <;> rfl
  · rw [step_of_offer hin]
    exact offer_illegal (s := withInputs xs s) hd
  · rw [step_of_program hin hf hp]
    exact (offer_illegal hd).1 hf
  · rw [step_withFetchWord_descriptor]
    exact offer_illegal hd

end Sys2Proof.Machine
end

section
/-! PROOF. The sequencer's place (10_state.md R22 to R24; 41_bus_sequencer.md R153). `seqOk` of a running transfer
command is taken apart into what the state says whatever the sub-step (`placeOk`) and the sub-step, which is an exit
(`exitStage`) or one of the monitor call (`seqOk_iff`). Then one lemma for each function that follows an access, put
together in `seqOk_advance`. -/

namespace Sys2Proof.Machine

/-- What `seqOk` says of a state of a transfer command whatever the sub-step: the phase, and that `IDX` names a byte
(10_state.md R22, R24). -/
def placeOk (s : State) : Prop :=
  match s.fsm with
  | .idle | .halt _ | .cfg _ => True
  | .start | .master | .addr | .addrclr => phaseOk s = true
  | .txe | .btf => phaseOk s = true ∧ s.phase = .wr ∧ s.idx < s.wlen
  | .rxne => phaseOk s = true ∧ s.phase = .rd ∧ s.idx < s.rlen
  | .stop => phaseOk s = true ∧ (s.phase = .rd ∨ s.op = .write)

/-- The sub-steps outside a monitor call that a state of a transfer command has (41_bus_sequencer.md R153). -/
def exitStage (s : State) : Prop :=
  match s.fsm with
  | .idle | .halt _ | .cfg _ | .addr => False
  | .start => s.stage = .request
  | .master => s.stage = .second ∨ s.stage = .leave
  | .addrclr =>
    s.stage = .leave ∨
      s.stage = .leaveCtrl ∧
        (s.phase = .wr ∧ s.op = .write ∧ s.wlen = 0 ∨ s.phase = .rd ∧ s.rlen = 1)
  | .txe => s.stage = .leave
  | .btf => s.stage = .leave ∧ s.op = .write ∧ s.idx + 1 = s.wlen
  | .rxne => s.stage = .leave ∨ s.stage = .leaveCtrl ∧ s.idx + 2 = s.rlen
  | .stop => s.stage = .second

/-- `seqOk` of a running transfer command: the state and the sub-step, each in order. -/
theorem seqOk_iff {s : State} (hr : s.running = true) (hc : ∀ k, s.fsm ≠ .cfg k) :
    seqOk s = true ↔
      placeOk s ∧ (exitStage s ∨ s.fsm.polls = true ∧ monitorStage s.rdata s.stage = true) := by
  unfold seqOk placeOk exitStage Fsm.polls
  unfold State.running at hr
  cases hf : s.fsm with
  | idle => simp [hf] at hr
  | halt r => simp [hf] at hr
  | cfg k => exact absurd hf (hc k)
  | addrclr => cases hp : s.phase <;> simp
  | start => simp
  | master => simp [or_assoc]
  | addr => simp
  | txe => simp [and_assoc]
  | btf => simp [and_assoc]
  | rxne => simp [and_assoc, or_assoc]
  | stop => simp [and_assoc]

/-- A START request stands in `S_START`, a second read in the master or STOP poll (41_bus_sequencer.md R153). -/
theorem exitStage_cases {s : State} (h : exitStage s) :
    s.stage = .request ∧ s.fsm = .start ∨ s.stage = .second ∧ (s.fsm = .master ∨ s.fsm = .stop) ∨
      s.stage = .leave ∨ s.stage = .leaveCtrl := by
  unfold exitStage at h
  cases hf : s.fsm with
  | start => simp_all
  | master => simp only [hf] at h; rcases h with hg | hg <;> simp [hg]
  | addrclr => simp only [hf] at h; rcases h with hg | ⟨hg, -⟩ <;> simp [hg]
  | txe => simp_all
  | btf => simp_all
  | rxne => simp only [hf] at h; rcases h with hg | ⟨hg, -⟩ <;> simp [hg]
  | stop => simp_all
  | _ => simp [hf] at h

/-! ### The places the sequencer goes to -/

theorem running_of_polls {s : State} (h : s.fsm.polls = true) : s.running = true := by
  unfold State.running
  cases hf : s.fsm <;> simp [hf, Fsm.polls] at h ⊢

theorem ne_cfg_of_polls {s : State} (h : s.fsm.polls = true) (k : CfgStep) : s.fsm ≠ .cfg k := by
  intro hk
  simp [hk, Fsm.polls] at h

/-- A polling state at a sub-step of its monitor call. -/
theorem seqOk_goStage_of_monitorStage {g : Stage} {s : State} (hp : placeOk s) (hf : s.fsm.polls = true)
    (hm : monitorStage s.rdata g = true) : seqOk (goStage g s) = true :=
  (seqOk_iff (s := goStage g s) (running_of_polls hf) (ne_cfg_of_polls hf)).2 ⟨hp, .inr ⟨hf, hm⟩⟩

/-- A state of a transfer command at a sub-step outside the monitor call. -/
theorem seqOk_goStage_of_exitStage {g : Stage} {s : State} (hr : s.running = true) (hc : ∀ k, s.fsm ≠ .cfg k)
    (hp : placeOk s) (he : exitStage (goStage g s)) : seqOk (goStage g s) = true :=
  (seqOk_iff (s := goStage g s) hr hc).2 ⟨hp, .inl he⟩

/-- A polling state is begun with a monitor call (41_bus_sequencer.md R141). -/
theorem seqOk_goPoll {f : Fsm} {s : State} (hf : f.polls = true) (hp : placeOk (goPoll f s)) :
    seqOk (goPoll f s) = true :=
  seqOk_goStage_of_monitorStage (g := .monitor) (s := goPoll f s) hp hf rfl

theorem seqOk_complete (r : Result) (s : State) : seqOk (complete r s) = true := rfl

theorem seqOk_startPhase {p : Phase} {s : State} (h : phaseOk { s with phase := p } = true) :
    seqOk (startPhase p s) = true :=
  (seqOk_iff rfl (by simp)).2 ⟨h, .inl rfl⟩

theorem seqOk_enterRead {s : State} (h : s.op.reads = true) : seqOk (enterRead s) = true := by
  unfold enterRead
  split
  · exact seqOk_complete _ s
  · apply seqOk_startPhase
    simp [phaseOk, h, Nat.pos_of_ne_zero ‹_›]

/-- A read phase has a byte to receive (10_state.md R24). -/
theorem rlen_pos_of_phaseOk {s : State} (hp : phaseOk s = true) (hrd : s.phase = .rd) : 0 < s.rlen := by
  simp only [phaseOk, hrd, Bool.and_eq_true, decide_eq_true_eq] at hp
  exact hp.2

/-- The end of a write phase: `WRITE` goes to sub-step `g`, `WRRD` to its read phase. -/
theorem seqOk_afterPayload {g : Stage} {s : State} (hp : phaseOk s = true) (hw : s.phase = .wr)
    (hg : s.op = .write → seqOk (goStage g s) = true) : seqOk (afterPayload g s) = true := by
  simp only [phaseOk, hw] at hp
  unfold afterPayload
  cases ho : s.op with
  | write => exact hg ho
  | wrrd => exact seqOk_enterRead (by rw [ho]; rfl)
  | init => simp [ho, Op.writes] at hp
  | read => simp [ho, Op.writes] at hp
  | reconf => simp [ho, Op.writes] at hp

/-! ### What follows an access -/

theorem seqOk_afterBtf {s : State} (hf : s.fsm = .btf) (hp : placeOk s) : seqOk (afterBtf s) = true := by
  have hplace := hp
  simp only [placeOk, hf] at hp
  obtain ⟨hphase, hw, hidx⟩ := hp
  unfold afterBtf
  split
  · next hlt => exact seqOk_goPoll rfl ⟨hphase, hw, hlt⟩
  · next hlast =>
    refine seqOk_afterPayload hphase hw fun ho => seqOk_goStage_of_exitStage ?_ ?_ hplace ?_
    · simp [State.running, hf]
    · simp [hf]
    · simp only [exitStage, goStage_fsm, hf]
      exact ⟨rfl, ho, (by omega : s.idx + 1 = s.wlen)⟩

theorem seqOk_pollFlag {n : Nat} {go : State → State} {s : State} (hp : placeOk s) (hf : s.fsm.polls = true)
    (hgo : seqOk (go (storeSnap s)) = true) : seqOk (pollFlag n go s) = true := by
  unfold pollFlag
  split
  · exact hgo
  · exact seqOk_goStage_of_monitorStage (s := storeSnap s) hp hf rfl

/-- A monitor call that returned `Ok` leads to a place of the step table from every polling state. -/
theorem seqOk_afterMonitor {s : State} (hp : placeOk s) (hf : s.fsm.polls = true) :
    seqOk (afterMonitor s) = true := by
  have hr := running_of_polls hf
  have hc := ne_cfg_of_polls hf
  have hplace := hp
  unfold afterMonitor
  cases hs : s.fsm with
  | start =>
    simp only [placeOk, hs] at hplace
    exact seqOk_pollFlag hp hf (seqOk_goPoll rfl hplace)
  | master => exact seqOk_goStage_of_exitStage hr hc hp (by simp [exitStage, hs])
  | addr =>
    simp only [placeOk, hs] at hplace
    exact seqOk_pollFlag hp hf ((seqOk_iff rfl (by simp)).2 ⟨hplace, .inl (.inl rfl)⟩)
  | txe =>
    exact seqOk_pollFlag hp hf
      (seqOk_goStage_of_exitStage (s := storeSnap s) hr hc hp (by simp [exitStage, hs]))
  | btf => exact seqOk_pollFlag hp hf (seqOk_afterBtf (s := storeSnap s) hs hp)
  | rxne =>
    exact seqOk_pollFlag hp hf
      (seqOk_goStage_of_exitStage (s := storeSnap s) hr hc hp (by simp [exitStage, hs]))
  | stop => exact seqOk_goStage_of_exitStage hr hc hp (by simp [exitStage, hs])
  | _ => simp [hs, Fsm.polls] at hf

theorem seqOk_afterStatusRead {s : State} (hp : placeOk s) (hf : s.fsm.polls = true) :
    seqOk (afterStatusRead s) = true := by
  unfold afterStatusRead
  split
  · next f hflag => exact seqOk_goStage_of_monitorStage hp hf (by simp [monitorStage, hflag])
  · next hcalm =>
    split
    · next hberr => exact seqOk_goStage_of_monitorStage hp hf (by simp [monitorStage, hcalm, hberr])
    · exact seqOk_afterMonitor hp hf

theorem seqOk_afterClearErr {f : ErrFlag} {s : State} (hp : placeOk s) (hf : s.fsm.polls = true)
    (hflag : firstError s.rdata = some f) : seqOk (afterClearErr f s) = true := by
  unfold afterClearErr
  split
  · next hberr => exact seqOk_goStage_of_monitorStage hp hf (by simp [monitorStage, hflag, hberr])
  · exact seqOk_complete _ s

theorem seqOk_afterClearBerr {e : Option ErrFlag} {s : State} (hp : placeOk s) (hf : s.fsm.polls = true) :
    seqOk (afterClearBerr e s) = true := by
  cases e with
  | some f => exact seqOk_complete _ s
  | none => exact seqOk_afterMonitor hp hf

theorem seqOk_afterSecond {s : State} (hp : placeOk s) (hg : s.fsm = .master ∨ s.fsm = .stop) :
    seqOk (afterSecond s) = true := by
  have hagain : seqOk (goStage .monitor s) = true :=
    seqOk_goStage_of_monitorStage hp (by rcases hg with hs | hs <;> rw [hs] <;> rfl) rfl
  rcases hg with hs | hs
  · simp only [afterSecond, hs]
    split
    · exact seqOk_goStage_of_exitStage (by simp [State.running, hs]) (by simp [hs]) hp (by simp [exitStage, hs])
    · exact hagain
  · simp only [afterSecond, hs]
    split
    · exact hagain
    · exact seqOk_complete _ s

/-- Row `S_ADDRCLR` after the latch-clearing read (41_bus_sequencer.md R153). -/
theorem seqOk_afterLatchClear {s : State} (hs : s.fsm = .addrclr) (hp : phaseOk s = true) :
    seqOk (afterLatchClear s) = true := by
  have hctrl : exitStage (goStage .leaveCtrl s) → seqOk (goStage .leaveCtrl s) = true :=
    seqOk_goStage_of_exitStage (by simp [State.running, hs]) (by simp [hs]) (by simpa [placeOk, hs] using hp)
  unfold afterLatchClear
  split
  · next hwr =>
    split
    · next hpos => exact seqOk_goPoll rfl ⟨hp, hwr, hpos⟩
    · next hzero =>
      refine seqOk_afterPayload hp hwr fun ho => hctrl ?_
      simp [exitStage, hs, hwr, ho, Nat.eq_zero_of_not_pos hzero]
  · next hrd =>
    have hpos := rlen_pos_of_phaseOk hp hrd
    split
    · exact seqOk_goPoll rfl ⟨hp, hrd, hpos⟩
    · next hone =>
      refine hctrl ?_
      have : s.rlen = 1 := by omega
      simp [exitStage, hs, hrd, this]

/-- Row `S_RXNE(i)` after the drain (41_bus_sequencer.md R153). -/
theorem seqOk_afterDrain {s : State} (hs : s.fsm = .rxne) (hp : placeOk s) : seqOk (afterDrain s) = true := by
  have hplace := hp
  simp only [placeOk, hs] at hp
  obtain ⟨hphase, hrd, hidx⟩ := hp
  unfold afterDrain
  split
  · exact seqOk_goPoll rfl ⟨hphase, .inl hrd⟩
  · split
    · next hnext =>
      exact seqOk_goStage_of_exitStage (s := storeReceived s) (by simp [State.running, hs]) (by simp [hs]) hplace
        (by simp [exitStage, hs, hnext])
    · exact seqOk_goPoll rfl ⟨hphase, hrd, (by omega : s.idx + 1 < s.rlen)⟩

theorem seqOk_afterLeave {s : State} (h : seqOk s = true) (hp : placeOk s)
    (he : exitStage s) : seqOk (afterLeave s) = true := by
  unfold afterLeave
  split
  · next hs => simp only [placeOk, hs] at hp; exact seqOk_goPoll rfl hp
  · next hs => simp only [placeOk, hs] at hp; exact seqOk_afterLatchClear hs hp
  · next hs => simp only [placeOk, hs] at hp; exact seqOk_goPoll rfl hp
  · next hs =>
    simp only [placeOk, hs] at hp
    simp only [exitStage, hs] at he
    exact seqOk_goPoll rfl ⟨hp.1, .inr he.2.1⟩
  · next hs => exact seqOk_afterDrain hs hp
  · exact h

theorem seqOk_afterLeaveCtrl {s : State} (h : seqOk s = true) (hg : s.stage = .leaveCtrl) (hp : placeOk s)
    (he : exitStage s) : seqOk (afterLeaveCtrl s) = true := by
  unfold afterLeaveCtrl
  split
  · next hs =>
    simp only [placeOk, hs] at hp
    simp only [exitStage, hs, hg] at he
    split
    · next hwr =>
      have ho : s.op = .write ∧ s.wlen = 0 := by simpa [hwr] using he
      exact seqOk_goPoll rfl ⟨hp, .inr ho.1⟩
    · next hrd =>
      exact seqOk_goPoll rfl ⟨hp, hrd, rlen_pos_of_phaseOk hp hrd⟩
  · next hs =>
    simp only [placeOk, hs] at hp
    obtain ⟨hphase, hrd, -⟩ := hp
    have hnext : s.idx + 2 = s.rlen := by simpa [exitStage, hs, hg] using he
    exact seqOk_goPoll rfl ⟨hphase, hrd, (by omega : s.idx + 1 < s.rlen)⟩
  · exact h

theorem seqOk_afterCfg {k : CfgStep} {s : State} (h : seqOk s = true) (hk : s.fsm = .cfg k) :
    seqOk (afterCfg k s) = true := by
  have hop : s.op = if k.ofInit then .init else .reconf := by simpa [seqOk, hk] using h
  cases k with
  | c10 | g4 => rfl
  | _ => simp [afterCfg, seqOk, hop, hk, CfgStep.ofInit]

theorem seqOk_cfgInternal {k : CfgStep} {s : State} (h : seqOk s = true) (hk : s.fsm = .cfg k) :
    seqOk (cfgInternal k s) = true := by
  have hop : s.op = if k.ofInit then .init else .reconf := by simpa [seqOk, hk] using h
  have hcalc : ∀ k', k'.ofInit = k.ofInit → seqOk (cfgCalculate k' s) = true := by
    intro k' hk'
    unfold cfgCalculate
    split
    · simp [seqOk, hop, hk']
    · rfl
  cases k with
  | c6 => exact hcalc _ rfl
  | g1 => exact hcalc _ rfl
  | _ => simp [cfgInternal, seqOk, hop, hk, CfgStep.ofInit]

/-! ### The access and what follows it -/

/-- What follows an access, by the place it was made at. -/
theorem advance_cases {P : State → Prop} {s : State} (cfg : ∀ k, s.fsm = .cfg k → P (afterCfg k s))
    (transfer : (∀ k, s.fsm ≠ .cfg k) →
      (s.stage = .request → P (goPoll .start s)) ∧ (s.stage = .monitor → P (afterStatusRead s)) ∧
      (∀ f, s.stage = .clearErr f → P (afterClearErr f s)) ∧
      (∀ e, s.stage = .clearBerr e → P (afterClearBerr e s)) ∧ (s.stage = .second → P (afterSecond s)) ∧
      (s.stage = .leave → P (afterLeave s)) ∧ (s.stage = .leaveCtrl → P (afterLeaveCtrl s))) :
    P (advance s) := by
  unfold advance
  split
  · next k hk => exact cfg k hk
  · next hc =>
    obtain ⟨request, monitor, clearErr, clearBerr, second, leave, leaveCtrl⟩ := transfer hc
    cases hg : s.stage with
    | request => exact request hg
    | monitor => exact monitor hg
    | clearErr f => exact clearErr f hg
    | clearBerr e => exact clearBerr e hg
    | second => exact second hg
    | leave => exact leave hg
    | leaveCtrl => exact leaveCtrl hg

theorem advance_of_cfg {k : CfgStep} {s : State} (hk : s.fsm = .cfg k) : advance s = afterCfg k s := by
  simp only [advance, hk]

/-- What follows the access of a running command leads to a place of the step table. -/
theorem seqOk_advance {s : State} (h : seqOk s = true) (hr : s.running = true) : seqOk (advance s) = true := by
  refine advance_cases (P := fun t => seqOk t = true) (fun k hk => seqOk_afterCfg h hk) fun hc => ?_
  obtain ⟨hp, hstage⟩ := (seqOk_iff hr hc).1 h
  have hexit : monitorStage s.rdata s.stage = false → exitStage s := fun hm => by simpa [hm] using hstage
  have hcall : ¬ exitStage s → s.fsm.polls = true ∧ monitorStage s.rdata s.stage = true :=
    fun hn => by simpa [hn] using hstage
  refine ⟨fun hg => ?_, fun hg => ?_, fun f hg => ?_, fun e hg => ?_, fun hg => ?_, fun hg => ?_, fun hg => ?_⟩
  · have hs : s.fsm = .start := by simpa [hg] using exitStage_cases (hexit (by rw [hg]; rfl))
    simp only [placeOk, hs] at hp
    exact seqOk_goPoll rfl hp
  · obtain ⟨hf, -⟩ := hcall fun he => by simpa [hg] using exitStage_cases he
    exact seqOk_afterStatusRead hp hf
  · obtain ⟨hf, hm⟩ := hcall fun he => by simpa [hg] using exitStage_cases he
    exact seqOk_afterClearErr hp hf (by simpa [hg, monitorStage] using hm)
  · obtain ⟨hf, -⟩ := hcall fun he => by simpa [hg] using exitStage_cases he
    exact seqOk_afterClearBerr hp hf
  · have hs : s.fsm = .master ∨ s.fsm = .stop := by simpa [hg] using exitStage_cases (hexit (by rw [hg]; rfl))
    exact seqOk_afterSecond hp hs
  · exact seqOk_afterLeave h hp (hexit (by rw [hg]; rfl))
  · exact seqOk_afterLeaveCtrl h hg hp (hexit (by rw [hg]; rfl))

theorem exec_clearOf (f : ErrFlag) (s : State) : exec (clearOf f) s = .next (pClear (errBit f) s) := by
  cases f <;> rfl

/-- The access of a monitor call leaves it in order: it is the status read, or a clear, which keeps the value read. -/
theorem monitorStage_exec {s u : State} {i : Instr} (hf : s.fsm.polls = true)
    (hm : monitorStage s.rdata s.stage = true) (ha : access s = some i) (hu : exec i s = .next u) :
    monitorStage u.rdata s.stage = true := by
  unfold access at ha
  split at ha
  · next k hk => exact absurd hk (ne_cfg_of_polls hf k)
  · cases hg : s.stage with
    | monitor => rfl
    | clearErr f =>
      obtain rfl : clearOf f = i := by simpa [hg, whilePolling, hf] using ha
      rw [exec_clearOf] at hu
      cases hu
      rwa [hg] at hm
    | clearBerr e =>
      obtain rfl : .pClrBerr = i := by simpa [hg, whilePolling, hf] using ha
      cases hu
      rwa [hg] at hm
    | _ => simp [hg, monitorStage] at hm

/-- The access itself keeps the place in order: of it a read changes the value read, and no clear of a monitor call
does. -/
theorem seqOk_exec_access {s u : State} {i : Instr} (h : seqOk s = true) (hr : s.running = true)
    (ha : access s = some i) (hu : exec i s = .next u) : seqOk u = true ∧ u.running = true := by
  have hframe := exec_port_frame (access_isPort ha) hu
  have hfsm : u.fsm = s.fsm := by rw [hframe]
  have hrun : u.running = true := by unfold State.running at hr ⊢; rwa [hfsm]
  refine ⟨?_, hrun⟩
  by_cases hc : ∀ k, s.fsm ≠ .cfg k
  · obtain ⟨hp, hstage⟩ := (seqOk_iff hr hc).1 h
    refine (seqOk_iff hrun (by rwa [hfsm])).2 ⟨by rw [hframe]; exact hp, ?_⟩
    rcases hstage with he | ⟨hf, hm⟩
    · exact .inl (by rw [hframe]; exact he)
    · refine .inr ⟨by rwa [hfsm], ?_⟩
      have hkept := monitorStage_exec hf hm ha hu
      rw [hframe] at hkept ⊢
      exact hkept
  · obtain ⟨k, hk⟩ := not_forall_not.mp hc
    have hop : u.op = s.op := by rw [hframe]
    simpa [seqOk, hfsm, hk, hop] using h

/-! ### A command offered -/

theorem seqOk_offer {c : HostCmd} {s t : State} (h : offer c s = .next t) : seqOk t = true := by
  rcases offer_cases h with ⟨-, -, rfl⟩ | ⟨i, -, hi, hx⟩
  · rfl
  · rcases exec_command_cases hi hx with ⟨-, -, hcmd⟩ | ⟨-, -, _, _, _, -, -, -, rfl⟩ | ⟨-, -, rfl⟩
    · rcases hcmd with ⟨_, _, -, rfl⟩ | ⟨_, _, -, rfl⟩ | ⟨_, _, _, -, rfl⟩ | ⟨_, -, -, -, rfl⟩
      · exact seqOk_startPhase rfl
      · exact seqOk_enterRead rfl
      · exact seqOk_startPhase rfl
      · rfl
    · rfl
    · rfl

/-- Settles O47: each kind of step leads to a place of the step table. -/
theorem sequencerInvariant : Obligations.SequencerInvariant := by
  unfold Obligations.SequencerInvariant
  intro s t hs ht
  refine step_preserves (P := fun s => seqOk s = true) (C := fun _ => True)
    (inputs := fun _ _ _ h => h)
    (access := fun s i u h hr _ ha hu => ?_)
    (internal := fun _ _ h hk _ => seqOk_cfgInternal h hk)
    (lend := fun _ _ _ _ => trivial)
    (program := fun _ _ _ _ h => h)
    (command := fun _ _ _ _ _ ho => seqOk_offer ho)
    (reset := fun _ _ _ => rfl)
    (environment := fun _ _ _ h => h)
    (foreign := fun _ _ _ _ _ h => h)
    (write := fun _ _ _ _ h => h) hs ht
  obtain ⟨hu, hrun⟩ := seqOk_exec_access h hr ha hu
  exact seqOk_advance hu hrun

end Sys2Proof.Machine
end

section
/-! PROOF. What a transfer command can change beside the peripheral: its place, the snapshot, the result, and by a drain
`RXBUF` (`MovesOnly.advance`). From it follows that it keeps the handle and the other buffers. -/

namespace Sys2Proof.Machine

/-- From `s` to `t` only the sequencer's place, the snapshot and the result change, and no configuration step is
entered. -/
structure MovesOnly (s t : State) : Prop where
  frame : t = { s with
    fsm := t.fsm, stage := t.stage, phase := t.phase, idx := t.idx, snap := t.snap, result := t.result }
  noCfg : ∀ k, t.fsm = .cfg k → s.fsm = .cfg k

namespace MovesOnly
variable {s t u : State}

theorem refl (s : State) : MovesOnly s s := ⟨rfl, fun _ h => h⟩

theorem trans (h : MovesOnly s t) (h' : MovesOnly t u) : MovesOnly s u := by
  refine ⟨?_, fun k hk => h.noCfg k (h'.noCfg k hk)⟩
  have hu := h'.frame
  rw [h.frame] at hu
  exact hu

theorem goStage (g : Stage) (s : State) : MovesOnly s (goStage g s) := ⟨rfl, fun _ h => h⟩

theorem goPoll {f : Fsm} (hf : f.polls = true) (s : State) : MovesOnly s (goPoll f s) :=
  ⟨rfl, fun k hk => absurd hk (ne_cfg_of_polls (s := Machine.goPoll f s) hf k)⟩

theorem complete (r : Result) (s : State) : MovesOnly s (complete r s) := ⟨rfl, by simp⟩

theorem startPhase (p : Phase) (s : State) : MovesOnly s (startPhase p s) := ⟨rfl, by simp⟩

theorem storeSnap (s : State) : MovesOnly s (storeSnap s) := ⟨rfl, fun _ h => h⟩

theorem setIdx (n : Nat) (s : State) : MovesOnly s { s with idx := n } := ⟨rfl, fun _ h => h⟩

theorem enterRead (s : State) : MovesOnly s (enterRead s) := by
  unfold Machine.enterRead
  split
  · exact complete _ s
  · exact startPhase _ s

theorem afterPayload (g : Stage) (s : State) : MovesOnly s (afterPayload g s) := by
  unfold Machine.afterPayload
  split
  · exact goStage g s
  · exact enterRead s
  all_goals exact refl s

theorem afterBtf (s : State) : MovesOnly s (afterBtf s) := by
  unfold Machine.afterBtf
  split
  · exact (setIdx _ s).trans (goPoll rfl _)
  · exact afterPayload _ s

theorem pollFlag {n : Nat} {go : State → State} {s : State}
    (hgo : MovesOnly (Machine.storeSnap s) (go (Machine.storeSnap s))) : MovesOnly s (pollFlag n go s) := by
  unfold Machine.pollFlag
  split
  · exact (storeSnap s).trans hgo
  · exact (storeSnap s).trans (goStage _ _)

theorem afterMonitor (s : State) : MovesOnly s (afterMonitor s) := by
  unfold Machine.afterMonitor
  split
  · exact pollFlag (goPoll rfl _)
  · exact goStage _ s
  · exact pollFlag ⟨rfl, by simp⟩
  · exact pollFlag (goStage _ _)
  · exact pollFlag (afterBtf _)
  · exact pollFlag (goStage _ _)
  · exact goStage _ s
  all_goals exact refl s

theorem afterStatusRead (s : State) : MovesOnly s (afterStatusRead s) := by
  unfold Machine.afterStatusRead
  split
  · exact goStage _ s
  · split
    · exact goStage _ s
    · exact afterMonitor s

theorem afterClearErr (f : ErrFlag) (s : State) : MovesOnly s (afterClearErr f s) := by
  unfold Machine.afterClearErr
  split
  · exact goStage _ s
  · exact complete _ s

theorem afterClearBerr (e : Option ErrFlag) (s : State) : MovesOnly s (afterClearBerr e s) := by
  cases e with
  | some f => exact complete _ s
  | none => exact afterMonitor s

theorem afterSecond (s : State) : MovesOnly s (afterSecond s) := by
  unfold Machine.afterSecond
  split
  · split <;> exact goStage _ s
  · split
    · exact goStage _ s
    · exact complete _ s
  · exact refl s

theorem afterLatchClear (s : State) : MovesOnly s (afterLatchClear s) := by
  unfold Machine.afterLatchClear
  split
  · split
    · exact (setIdx _ s).trans (goPoll rfl _)
    · exact afterPayload _ s
  · split
    · exact (setIdx _ s).trans (goPoll rfl _)
    · exact goStage _ s

/-- A drain stores the received byte first. -/
theorem afterDrain (s : State) : MovesOnly (storeReceived s) (afterDrain s) := by
  unfold Machine.afterDrain
  split
  · exact goPoll rfl _
  · split
    · exact goStage _ _
    · exact (setIdx _ _).trans (goPoll rfl _)

theorem afterLeaveCtrl (s : State) : MovesOnly s (afterLeaveCtrl s) := by
  unfold Machine.afterLeaveCtrl
  split
  · split
    · exact goPoll rfl s
    · exact (setIdx _ s).trans (goPoll rfl _)
  · exact (setIdx _ s).trans (goPoll rfl _)
  · exact refl s

theorem afterLeave (s : State) :
    MovesOnly s (afterLeave s) ∨ MovesOnly (storeReceived s) (afterLeave s) := by
  unfold Machine.afterLeave
  split
  · exact .inl (goPoll rfl s)
  · exact .inl (afterLatchClear s)
  · exact .inl (goPoll rfl s)
  · exact .inl (goPoll rfl s)
  · exact .inr (afterDrain s)
  · exact .inl (refl s)

/-- What follows an access of a transfer command only moves the sequencer, once a drained byte is stored. -/
theorem advance {s : State} (hc : ∀ k, s.fsm ≠ .cfg k) :
    MovesOnly s (advance s) ∨ MovesOnly (storeReceived s) (advance s) :=
  advance_cases (P := fun t => MovesOnly s t ∨ MovesOnly (storeReceived s) t) (fun k hk => absurd hk (hc k)) fun _ =>
    ⟨fun _ => .inl (goPoll rfl s), fun _ => .inl (afterStatusRead s), fun f _ => .inl (afterClearErr f s),
      fun e _ => .inl (afterClearBerr e s), fun _ => .inl (afterSecond s), fun _ => afterLeave s,
      fun _ => .inl (afterLeaveCtrl s)⟩

end MovesOnly

end Sys2Proof.Machine
end

section
/-! PROOF. The timings (10_state.md R49): a record `TCALC` returns is valid where its `ccr` fits the field
(`valid_of_tcalc`), and only a configuration command that ends writes one. -/

namespace Sys2Proof.Machine

/-! ### The calculated record -/

theorem tcalcTrise_bounds {d target : Nat} (hd : d ≤ 50) : 1 ≤ tcalcTrise d target ∧ tcalcTrise d target ≤ 51 := by
  unfold tcalcTrise Config.riseNum Config.riseDen
  split <;> omega

/-- A record `TCALC` returns, whose `ccr` fits the register field, is valid (10_state.md R49). -/
theorem valid_of_tcalc {clock target : Nat} {t : Timings} (h : tcalc clock target = .ok t)
    (hw : ccrTooWide clock target = false) : t.valid = true := by
  have hfield : decide (Config.ccrFieldMax < t.ccr) = false := by simpa only [ccrTooWide, h] using hw
  have hccr : t.ccr ≤ 4095 := Nat.not_lt.mp (of_decide_eq_false hfield)
  unfold tcalc tcalcWith Config.divMin Config.divMax at h
  split at h
  · cases h
  · next hdiv =>
    have hlo : 2 ≤ tcalcDivisor clock := by omega
    have hhi : tcalcDivisor clock ≤ 50 := by omega
    obtain ⟨htrise, htrise'⟩ := tcalcTrise_bounds (target := target) hhi
    split at h
    · cases h
    · split at h
      · cases h
        simp_all [Timings.valid, tcalcStandard, Config.ccrMinStd]
      · cases h
        simp_all [Timings.valid, tcalcFast, Config.ccrMinFast, Config.fastDutyPolicy]

theorem valid_of_operandOk {s : State} {t : Timings} (h : tcalc s.pclkHz s.freq = .ok t) (ho : operandOk s = true) :
    t.valid = true := by
  simp only [operandOk, Bool.and_eq_true, Bool.not_eq_true'] at ho
  exact valid_of_tcalc h ho.2

/-! ### The lifecycle and the timings -/

/-- A transfer command runs on a constructed block only. -/
theorem lifecycleOk_iff {s : State} (hr : s.running = true) (hc : ∀ k, s.fsm ≠ .cfg k) :
    lifecycleOk s = true ↔ s.constructed = true := by
  unfold State.running at hr
  unfold lifecycleOk
  split <;> simp_all

theorem lifecycleOk_of_constructed {s : State} (h : s.constructed = true) (hc : ∀ k, s.fsm ≠ .cfg k) :
    lifecycleOk s = true := by
  unfold lifecycleOk
  split <;> simp_all

/-- After the access of a configuration step the command goes on as it was, or ends and stores its record. -/
theorem timings_afterCfg {k : CfgStep} {s : State} (hk : s.fsm = .cfg k) (hl : lifecycleOk s = true)
    (ht : timingsOk s = true) : lifecycleOk (afterCfg k s) = true ∧ timingsOk (afterCfg k s) = true := by
  have hplace := hl
  simp only [lifecycleOk, hk] at hplace
  cases k with
  | c10 =>
    have hvalid : s.plan.valid = true := by simp_all
    exact ⟨rfl, by simp [afterCfg, finishInit, timingsOk, hvalid]⟩
  | g4 =>
    obtain ⟨hc, hvalid⟩ : s.constructed = true ∧ s.plan.valid = true := by simpa [CfgStep.ofInit] using hplace
    have hconfig : s.config.isSome = true := by simp_all [timingsOk]
    exact ⟨rfl, by simp [afterCfg, finishReconf, timingsOk, hvalid, hconfig]⟩
  | c5 | c7 | c8 | c9 | g2 | g3 => exact ⟨hplace, ht⟩
  | _ => exact ⟨hl, ht⟩

/-- The calculation answers a valid record or ends the command in `HALT`. -/
theorem timings_cfgCalculate {k : CfgStep} {s : State} (ho : operandOk s = true) (ht : timingsOk s = true)
    (hnext : ∀ t : Timings, t.valid = true → lifecycleOk { s with plan := t, fsm := .cfg k } = true) :
    lifecycleOk (cfgCalculate k s) = true ∧ timingsOk (cfgCalculate k s) = true := by
  unfold cfgCalculate
  split
  · next t htc => exact ⟨hnext t (valid_of_operandOk htc ho), ht⟩
  · exact ⟨rfl, ht⟩

theorem timings_cfgInternal {k : CfgStep} {s : State} (hk : s.fsm = .cfg k) (hl : lifecycleOk s = true)
    (ht : timingsOk s = true) : lifecycleOk (cfgInternal k s) = true ∧ timingsOk (cfgInternal k s) = true := by
  have hplace := hl
  simp only [lifecycleOk, hk] at hplace
  cases k with
  | c6 | g1 =>
    rw [Bool.and_eq_true] at hplace
    obtain ⟨hc, ho⟩ := hplace
    exact timings_cfgCalculate ho ht fun t hv => by
      simp only [lifecycleOk, hv, Bool.and_true]
      exact hc
  | c1 | c2 | c3 | c4 => exact ⟨hplace, ht⟩
  | _ => exact ⟨hl, ht⟩

/-- A transfer command keeps the handle and enters no configuration step. -/
theorem timings_of_movesOnly {s t : State} (hm : MovesOnly s t) (hc : ∀ k, s.fsm ≠ .cfg k)
    (hcon : s.constructed = true) (ht : timingsOk s = true) : lifecycleOk t = true ∧ timingsOk t = true := by
  have hcon' : t.constructed = true := by rw [hm.frame]; exact hcon
  exact ⟨lifecycleOk_of_constructed hcon' fun k hk => hc k (hm.noCfg k hk), by rw [hm.frame]; exact ht⟩

theorem timings_advance {s : State} (hr : s.running = true) (hl : lifecycleOk s = true) (ht : timingsOk s = true) :
    lifecycleOk (advance s) = true ∧ timingsOk (advance s) = true := by
  by_cases hc : ∀ k, s.fsm ≠ .cfg k
  · have hcon := (lifecycleOk_iff hr hc).1 hl
    rcases MovesOnly.advance hc with hm | hm
    · exact timings_of_movesOnly hm hc hcon ht
    · exact timings_of_movesOnly hm hc hcon ht
  · obtain ⟨k, hk⟩ := not_forall_not.mp hc
    rw [advance_of_cfg hk]
    exact timings_afterCfg hk hl ht

/-- A command is accepted on the lifecycle it needs, with an operand in range (60_exceptions.md R225). -/
theorem timings_exec_command {i : Instr} (hi : i.isPort = false) {s t : State} (h : exec i s = .next t)
    (ht : timingsOk s = true) : lifecycleOk t = true ∧ timingsOk t = true := by
  rcases exec_command_cases hi h with ⟨hf, hcon, hcmd⟩ | ⟨-, hcon, f, _, _, -, htarget, hccr, rfl⟩ | ⟨-, -, rfl⟩
  · rcases hcmd with ⟨_, _, -, rfl⟩ | ⟨_, _, -, rfl⟩ | ⟨_, _, _, -, rfl⟩ | ⟨f, -, htarget, hccr, rfl⟩
    · exact ⟨hcon, ht⟩
    · exact timings_of_movesOnly (MovesOnly.enterRead _) (by simp [hf]) hcon ht
    · exact ⟨hcon, ht⟩
    · exact ⟨by simp [lifecycleOk, CfgStep.ofInit, operandOk, hcon, htarget, hccr], ht⟩
  · exact ⟨by simp [lifecycleOk, CfgStep.ofInit, operandOk, hcon, htarget, hccr], ht⟩
  · exact ⟨rfl, ht⟩

theorem timings_offer {c : HostCmd} {s t : State} (h : offer c s = .next t) (ht : timingsOk s = true) :
    lifecycleOk t = true ∧ timingsOk t = true := by
  rcases offer_cases h with ⟨-, -, rfl⟩ | ⟨i, -, hi, hx⟩
  · exact ⟨rfl, ht⟩
  · exact timings_exec_command hi hx (by simpa [timingsOk] using ht)

/-- Settles O51: the timings are written only as a record `TCALC` returned on an operand whose `ccr` fits its field. -/
theorem timingsInvariant : Obligations.TimingsInvariant := by
  unfold Obligations.TimingsInvariant
  intro s t _ hl ht hstep
  refine step_preserves (P := fun s => lifecycleOk s = true ∧ timingsOk s = true) (C := fun _ => True)
    (inputs := fun _ _ _ h => h)
    (access := fun s i u h hr _ ha hu => ?_)
    (internal := fun _ _ h hk _ => timings_cfgInternal hk h.1 h.2)
    (lend := fun _ _ _ _ => trivial)
    (program := fun _ _ _ _ h => h)
    (command := fun _ _ _ _ h ho => timings_offer ho h.2)
    (reset := fun _ _ _ => ⟨rfl, rfl⟩)
    (environment := fun _ _ _ h => h)
    (foreign := fun _ _ _ _ _ h => h)
    (write := fun _ _ _ _ h => h) ⟨hl, ht⟩ hstep
  obtain ⟨hl, ht⟩ := h
  have hframe := exec_port_frame (access_isPort ha) hu
  refine timings_advance ?_ ?_ ?_ <;> (rw [hframe]; assumption)

end Sys2Proof.Machine
end

section
/-! PROOF. The host's buffers (log 18): every operation keeps their one form. -/

namespace Sys2Proof.Machine

theorem memoryOk_iff (s : State) :
    memoryOk s = true ↔ s.host.txbuf.wf = true ∧ s.host.rxbuf.wf = true ∧
      (∀ c ∈ s.host.program, c.wf = true) ∧ ∀ x ∈ s.host.inputs, x.wf = true := by
  simp [memoryOk, and_assoc]

theorem memoryOk_congr {s t : State} (h : t.host = s.host) : memoryOk t = memoryOk s := by
  simp only [memoryOk, h]

theorem memoryOk_storeReceived {s : State} (h : memoryOk s = true) : memoryOk (storeReceived s) = true := by
  rw [memoryOk_iff] at h ⊢
  obtain ⟨htx, hrx, hprogram, hinputs⟩ := h
  exact ⟨htx, Memory.wf_write hrx _ _, hprogram, hinputs⟩

theorem afterCfg_host (k : CfgStep) (s : State) : (afterCfg k s).host = s.host := by cases k <;> rfl

theorem cfgInternal_host (k : CfgStep) (s : State) : (cfgInternal k s).host = s.host := by
  have hcalc : ∀ k', (cfgCalculate k' s).host = s.host := fun k' => by unfold cfgCalculate; split <;> rfl
  cases k with
  | c6 | g1 => exact hcalc _
  | _ => rfl

theorem MovesOnly.host {s t : State} (h : MovesOnly s t) : t.host = s.host := by rw [h.frame]

theorem memoryOk_advance {s : State} (h : memoryOk s = true) : memoryOk (advance s) = true := by
  by_cases hc : ∀ k, s.fsm ≠ .cfg k
  · rcases MovesOnly.advance hc with hm | hm
    · rwa [memoryOk_congr hm.host]
    · rw [memoryOk_congr hm.host]
      exact memoryOk_storeReceived h
  · obtain ⟨k, hk⟩ := not_forall_not.mp hc
    rwa [advance_of_cfg hk, memoryOk_congr (afterCfg_host k s)]

theorem exec_command_host {i : Instr} (hi : i.isPort = false) {s t : State} (h : exec i s = .next t) :
    t.host = s.host := by
  rcases exec_command_cases hi h with ⟨-, -, hcmd⟩ | ⟨-, -, _, _, _, -, -, -, rfl⟩ | ⟨-, -, rfl⟩
  · rcases hcmd with ⟨_, _, -, rfl⟩ | ⟨_, _, -, rfl⟩ | ⟨_, _, _, -, rfl⟩ | ⟨_, -, -, -, rfl⟩
    · rfl
    · exact (MovesOnly.enterRead _).host
    · rfl
    · rfl
  · rfl
  · rfl

/-- The buffers lent with a command take the place of the ones there were. -/
theorem memoryOk_receive {i : Instr} {c : HostCmd} {s : State} (hc : c.wf = true) (h : memoryOk s = true) :
    memoryOk (receive i c s) = true := by
  by_cases hf : s.fsm = .idle
  · rw [receive_idle hf]
    rw [memoryOk_iff] at h ⊢
    obtain ⟨htx, hrx, hprogram, hinputs⟩ := h
    obtain ⟨hctx, hcrx⟩ : c.tx.wf = true ∧ c.rx.wf = true := by simpa [HostCmd.wf] using hc
    refine ⟨?_, ?_, by simpa using hprogram, by simpa using hinputs⟩
    · cases i <;> assumption
    · cases i <;> assumption
  · rwa [receive_busy hf]

theorem memoryOk_offer {c : HostCmd} {s t : State} (hc : c.wf = true) (h : memoryOk s = true)
    (ho : offer c s = .next t) : memoryOk t = true := by
  rcases offer_cases ho with ⟨-, -, rfl⟩ | ⟨i, -, hi, hx⟩
  · exact h
  · rw [memoryOk_congr (exec_command_host hi hx)]
    exact memoryOk_receive hc h

/-- Settles O56: a buffer changes only by `Memory.write`, or is one lent with a command. -/
theorem memoryInvariant : Obligations.MemoryInvariant := by
  unfold Obligations.MemoryInvariant
  intro s t hs ht
  refine step_preserves (P := fun s => memoryOk s = true) (C := fun c => c.wf = true)
    (inputs := fun xs s hsub h => ?inputs)
    (access := fun s i u h _ _ ha hu => ?access)
    (internal := fun s k h _ _ => by rwa [memoryOk_congr (cfgInternal_host k s)])
    (lend := fun s c h hmem => ?lend)
    (program := fun s c cs hp h => ?program)
    (command := fun _ _ _ hc h ho => memoryOk_offer hc h ho)
    (reset := fun _ _ h => h)
    (environment := fun _ _ _ h => h)
    (foreign := fun _ _ _ _ _ h => h)
    (write := fun s i b _ h => ?write) hs ht
  case access =>
    have hframe := exec_port_frame (access_isPort ha) hu
    exact memoryOk_advance (by rw [hframe]; exact h)
  all_goals
    rw [memoryOk_iff] at h
    obtain ⟨htx, hrx, hprogram, hinputs⟩ := h
  case inputs => exact (memoryOk_iff _).2 ⟨htx, hrx, hprogram, fun x hx => hinputs x (hsub x hx)⟩
  case lend => exact hmem.elim (hprogram c) (hinputs (.offer c))
  case program =>
    exact (memoryOk_iff _).2 ⟨htx, hrx, fun x hx => hprogram x (by rw [hp]; exact List.mem_cons_of_mem _ hx), hinputs⟩
  case write => exact (memoryOk_iff _).2 ⟨Memory.wf_write htx i b, hrx, hprogram, hinputs⟩

end Sys2Proof.Machine
end

section
/-! PROOF. The address byte (10_state.md R50; 30_encoding.md R96). -/

namespace Sys2Proof.Machine

/-- The address byte as a number (30_encoding.md R96). -/
theorem toNat_addrByte (a : BitVec 7) (dir : Bool) :
    (addrByte a dir).toNat = 2 * a.toNat + (if dir then 1 else 0) := by
  have hshift : (a.zeroExtend 8 <<< 1).toNat = a.toNat <<< 1 := by
    have ha := a.isLt
    simp only [BitVec.toNat_shiftLeft, BitVec.toNat_setWidth, Nat.shiftLeft_eq]
    omega
  have hdir : (if dir then (1 : Byte) else 0).toNat = if dir then 1 else 0 := by cases dir <;> rfl
  have hbit : (if dir then 1 else 0) < 2 ^ 1 := by split <;> decide
  rw [addrByte, BitVec.toNat_or, hshift, hdir, ← Nat.shiftLeft_add_eq_or_of_lt hbit, Nat.shiftLeft_eq]
  omega

theorem toNat_dataWord (b : Byte) : (dataWord b).toNat = b.toNat := by
  have hb := b.isLt
  simp only [dataWord, BitVec.toNat_setWidth]
  omega

/-- Settles O32: the access on leaving the master poll writes the address byte. -/
theorem addressByteSent : Obligations.AddressByteSent := by
  unfold Obligations.AddressByteSent
  rintro s ⟨hin, hf, hg⟩
  have haccess : access s = some (.pWrData (addrByte s.addr7 (phaseDir s.phase))) := by
    simp [access, hf, hg, leaveOf]
  have hrow : hasRow s = true := by simp [hasRow, hf, hg]
  have hr : s.running = true := by simp [State.running, hf]
  refine ⟨dataWord (addrByte s.addr7 (phaseDir s.phase)), _, ?_, ?_, rfl⟩
  · rw [step_of_access hin hr hrow haccess (exec_pWrData s _)]
    simp [advance, hf, hg, afterLeave, goPoll, pWrite, Periph.set, Reg.offset]
  · rw [toNat_dataWord, toNat_addrByte]
    cases s.phase <;> rfl

end Sys2Proof.Machine
end

section
/-! PROOF. The state after reset (10_state.md R47; 70_reset_and_hazards.md R245). -/

namespace Sys2Proof.Machine

/-- Settles O57: the reset state is one concrete state, on which every invariant evaluates. -/
theorem resetState : Obligations.ResetState := by
  unfold Obligations.ResetState
  decide

end Sys2Proof.Machine
end

section
/-! PROOF. No step faults where the sequencer's place is in order (20_memory.md R70; 41_bus_sequencer.md R153; log 12). A
place that meets `seqOk` has its row of the step table (`hasRow_of_seqOk`), and no instruction, hence no command offered,
answers a fault (`exec_ne_fault`). -/

namespace Sys2Proof.Machine

/-! ### A place in order has a row -/

theorem btfRow_of_placeOk {s : State} (hf : s.fsm = .btf) (hp : placeOk s) : btfRow s = true := by
  simp only [placeOk, hf] at hp
  obtain ⟨hphase, hwr, hidx⟩ := hp
  have hop : s.op.writes = true := by simpa only [phaseOk, hwr] using hphase
  have hlast : s.idx + 1 < s.wlen ∨ s.idx + 1 = s.wlen := by omega
  simpa [btfRow, hop] using hlast

theorem drainRow_of_placeOk {s : State} (hf : s.fsm = .rxne) (hp : placeOk s) : drainRow s = true := by
  simp only [placeOk, hf] at hp
  simpa [drainRow] using hp.2.2

theorem latchRow_of_phaseOk {s : State} (hp : phaseOk s = true) : latchRow s = true := by
  unfold latchRow
  cases hphase : s.phase with
  | wr => simp only [phaseOk, hphase] at hp; simp [hp]
  | rd => simpa using rlen_pos_of_phaseOk hp hphase

theorem pollRow_of_placeOk {s : State} (hf : s.fsm.polls = true) (hp : placeOk s) : pollRow s = true := by
  unfold pollRow
  split
  · exact btfRow_of_placeOk ‹_› hp
  · exact drainRow_of_placeOk ‹_› hp
  · exact hf

/-- Every sub-step of a monitor call has the row of its polling state (42_error_flag_monitor.md R181). -/
theorem hasRow_of_monitorStage {s : State} (hf : s.fsm.polls = true) (hp : placeOk s)
    (hm : monitorStage s.rdata s.stage = true) : hasRow s = true := by
  have hrow := pollRow_of_placeOk hf hp
  unfold hasRow
  split
  · rfl
  · rfl
  · rfl
  · cases hg : s.stage with
    | monitor | clearErr | clearBerr => exact hrow
    | request | second | leave | leaveCtrl => simp [hg, monitorStage] at hm

/-- Every sub-step outside a monitor call has its row (41_bus_sequencer.md R153). -/
theorem hasRow_of_exitStage {s : State} (hp : placeOk s) (he : exitStage s) : hasRow s = true := by
  unfold exitStage at he
  cases hf : s.fsm with
  | idle | halt | cfg | addr => simp [hf] at he
  | start => simp only [hf] at he; simp [hasRow, hf, he]
  | master => simp only [hf] at he; rcases he with hg | hg <;> simp [hasRow, hf, hg]
  | addrclr =>
    have hrow : latchRow s = true := latchRow_of_phaseOk (by simpa only [placeOk, hf] using hp)
    simp only [hf] at he
    rcases he with hg | ⟨hg, -⟩ <;> simp [hasRow, hf, hg, hrow]
  | txe => simp only [hf] at he; simp [hasRow, hf, he]
  | btf => simp only [hf] at he; simp [hasRow, hf, he.1, btfRow_of_placeOk hf hp]
  | rxne =>
    have hrow := drainRow_of_placeOk hf hp
    simp only [hf] at he
    rcases he with hg | ⟨hg, -⟩ <;> simp [hasRow, hf, hg, hrow]
  | stop => simp only [hf] at he; simp [hasRow, hf, he]

/-- The step table has a row for every place in order. -/
theorem hasRow_of_seqOk {s : State} (hr : s.running = true) (h : seqOk s = true) : hasRow s = true := by
  by_cases hc : ∀ k, s.fsm ≠ .cfg k
  · obtain ⟨hp, he | ⟨hf, hm⟩⟩ := (seqOk_iff hr hc).1 h
    · exact hasRow_of_exitStage hp he
    · exact hasRow_of_monitorStage hf hp hm
  · obtain ⟨k, hk⟩ := not_forall_not.mp hc
    simp only [hasRow, hk]

/-! ### No instruction faults -/

theorem whenReady_ne_fault {a : Answer} {f : Fault} (h : a ≠ .fault f) (s : State) : whenReady s a ≠ .fault f := by
  unfold whenReady
  split
  · simp
  · split
    · simp
    · exact h

theorem acceptConfig_ne_fault (op : Op) (freq : Nat) (pull : PinConfig) (k : CfgStep) (s : State) (f : Fault) :
    acceptConfig op freq pull k s ≠ .fault f := by
  unfold acceptConfig
  split
  · simp
  · split <;> simp

theorem unimplemented_ne_fault (s : State) (f : Fault) : unimplemented s ≠ .fault f := by
  unfold unimplemented
  split <;> simp

/-- No instruction answers a fault: a micro-operation completes, a command is accepted or refused. -/
theorem exec_ne_fault (i : Instr) (s : State) (f : Fault) : exec i s ≠ .fault f := by
  cases i with
  | init freq scl sda =>
    change whenFresh s _ ≠ _
    unfold whenFresh
    split
    · simp
    · split
      · simp
      · exact acceptConfig_ne_fault _ _ _ _ s f
  | write a w => exact whenReady_ne_fault (by simp) s
  | read a n => exact whenReady_ne_fault (by simp) s
  | wrrd a w n => exact whenReady_ne_fault (by simp) s
  | reconf freq => exact whenReady_ne_fault (acceptConfig_ne_fault _ _ _ _ s f) s
  | xiter => exact unimplemented_ne_fault s f
  | xact => exact unimplemented_ne_fault s f
  | _ => simp

theorem offer_ne_fault (c : HostCmd) (s : State) (f : Fault) : offer c s ≠ .fault f := by
  unfold offer
  split
  · exact exec_ne_fault _ _ f
  · unfold illegalCommand
    split <;> simp

/-! ### No step faults -/

theorem commandStep_ne_fault {s : State} (hr : s.running = true) (h : seqOk s = true) (f : Fault) :
    commandStep s ≠ .fault f := by
  simp only [commandStep, hasRow_of_seqOk hr h]
  split
  · next i hi =>
    obtain ⟨u, hu⟩ := exec_port_next (access_isPort hi) s
    simp [hu, andAdvance]
  · simp

theorem blockStep_ne_fault {s : State} (h : seqOk s = true) (f : Fault) : blockStep s ≠ .fault f := by
  unfold blockStep
  split
  · exact commandStep_ne_fault ‹_› h f
  · unfold hostIssues
    split
    · exact offer_ne_fault _ _ f
    · simp

theorem inputStep_ne_fault {s : State} (h : seqOk s = true) (x : Input) (f : Fault) : inputStep x s ≠ .fault f := by
  cases x with
  | quiet => exact blockStep_ne_fault h f
  | reset p => simp [inputStep]
  | environment r v => simp [inputStep]
  | offer c => exact offer_ne_fault c s f
  | foreign r v => simp only [inputStep, foreignAccess]; split <;> simp
  | hostWrite i b => simp only [inputStep, hostWrites]; split <;> simp
  | hostRead => simp only [inputStep, hostReads]; split <;> simp

/-- Settles O48: a place in order has its row, and nothing else could fault. -/
theorem noFault : Obligations.NoFault := by
  unfold Obligations.NoFault
  intro s f h
  unfold step stepOf
  split
  · exact blockStep_ne_fault h f
  · next x xs _ => exact inputStep_ne_fault (s := withInputs xs s) h x f

end Sys2Proof.Machine
end

section
/-! PROOF. The port micro-operations (20_memory.md R62 to R65, R70 to R82). What a micro-operation answers is an equation
of Laws/Exec.lean; here are the bits of the register value it leaves: under the mask of an update (`bitsSet_underMask`),
after a clear (`bitsSet_clearBit`) and of the value a read returns. -/

namespace Sys2Proof.Machine

/-! ### Bits of an updated register -/

/-- The bits under the mask are at their new values, where the value field has them (20_memory.md R64). -/
theorem bitsSet_underMask {mask value : Word} {new : List (Nat × Bool)}
    (hnew : ∀ nb ∈ new, hasBit mask nb.1 = true ∧ hasBit value nb.1 = nb.2)
    (hmask : ∀ k < 16, hasBit mask k = true → ∃ b, (k, b) ∈ new) (old : Word) :
    bitsSet new old (underMask mask old value) := by
  refine ⟨fun nb hnb => ?_, fun k hk => ?_⟩
  · obtain ⟨hm, hv⟩ := hnew nb hnb
    rw [hasBit_underMask, if_pos hm, hv]
  · have hm : hasBit mask k ≠ true := fun hm => by
      obtain ⟨b, hb⟩ := hmask k (BitVec.lt_of_getLsbD hm) hm
      exact hk b hb
    rw [hasBit_underMask, if_neg hm]

theorem bitsSet_clearBit (old : Word) (n : Nat) : bitsSet [(n, false)] old (clearBit old n) := by
  refine ⟨?_, fun k hk => ?_⟩
  · simp [hasBit_clearBit]
  · have hn : n ≠ k := by rintro rfl; exact hk false (by simp)
    simp [hasBit_clearBit, hn]

theorem bitsSet_nil (old : Word) : bitsSet [] old old := ⟨by simp, fun _ _ => rfl⟩

/-! ### Field images -/

theorem mem_fieldBits_zero {n : Nat} {v : BitVec n} {nb : Nat × Bool} :
    nb ∈ fieldBits 0 v ↔ nb.1 < n ∧ nb.2 = v.getLsbD nb.1 := by
  obtain ⟨k, b⟩ := nb
  simp [fieldBits, eq_comm]

theorem hasBit_zeroExtend {n : Nat} (hn : n ≤ 16) (v : BitVec n) (k : Nat) :
    hasBit (v.zeroExtend 16) k = v.getLsbD k := by
  by_cases hk : k < 16
  · simp [hasBit, hk]
  · simp [hasBit, hk, BitVec.getLsbD_of_ge v k (by omega)]

/-- The image of the clock-control fields bit by bit (30_encoding.md R97). -/
theorem hasBit_ccrImage (fs duty : Bool) (c : BitVec 12) (k : Nat) :
    hasBit (ccrImage fs duty c) k = (fs && decide (15 = k) || duty && decide (14 = k) || c.getLsbD k) := by
  have hzero : hasBit 0#16 k = false := hasBit_zero k
  rw [ccrImage, hasBit_or, hasBit_or, hasBit_zeroExtend (by decide)]
  cases fs <;> cases duty <;> simp [hzero]

/-- A six-bit field at the bottom of a register, under its mask (30_encoding.md R98). -/
theorem bitsSet_lowSix (d : BitVec 6) (old : Word) :
    bitsSet (fieldBits 0 d) old (underMask 0x003F old (d.zeroExtend 16)) := by
  have hmask : ∀ k < 16, hasBit 0x003F k = decide (k < 6) := by decide
  refine bitsSet_underMask (fun nb hnb => ?_) (fun k hk hm => ?_) old
  · obtain ⟨hlt, hv⟩ := mem_fieldBits_zero.1 hnb
    rw [hasBit_zeroExtend (by decide), hv, hmask _ (by omega)]
    simpa using hlt
  · rw [hmask k hk] at hm
    exact ⟨d.getLsbD k, mem_fieldBits_zero.2 ⟨by simpa using hm, rfl⟩⟩

/-- The clock-control fields under their mask, which leaves out bits 13:12 (30_encoding.md R97). -/
theorem bitsSet_ccr (fs duty : Bool) (c : BitVec 12) (old : Word) :
    bitsSet ((15, fs) :: (14, duty) :: fieldBits 0 c) old (underMask 0xCFFF old (ccrImage fs duty c)) := by
  have hmask : ∀ k < 16, hasBit 0xCFFF k = decide (k = 15 ∨ k = 14 ∨ k < 12) := by decide
  refine bitsSet_underMask (fun nb hnb => ?_) (fun k hk hm => ?_) old
  · simp only [List.mem_cons, mem_fieldBits_zero] at hnb
    rw [hasBit_ccrImage]
    rcases hnb with rfl | rfl | ⟨hlt, hv⟩
    · exact ⟨by simpa using hmask 15 (by decide), by simp⟩
    · exact ⟨by simpa using hmask 14 (by decide), by simp⟩
    · have h15 : 15 ≠ nb.1 := by omega
      have h14 : 14 ≠ nb.1 := by omega
      rw [hmask _ (by omega)]
      simp [hlt, hv, h15, h14]
  · rw [hmask k hk, decide_eq_true_eq] at hm
    simp only [List.mem_cons, mem_fieldBits_zero]
    rcases hm with rfl | rfl | hlt
    · exact ⟨fs, .inl rfl⟩
    · exact ⟨duty, .inr (.inl rfl)⟩
    · exact ⟨_, .inr (.inr ⟨hlt, rfl⟩)⟩

/-! ### The value a read returns -/

theorem readValue_stat1 (s : State) : s.readValue .stat1 = stat1Answer s.per.stat1 s.env.answer := rfl

theorem readValue_ctrl1 (s : State) : s.readValue .ctrl1 = ctrl1Answer s.per.ctrl1 s.env.answer := rfl

/-! ### Updates and clears -/

/-- A micro-operation that is one `PUpdate`, whose record is its encoding, updates the fields under its mask. -/
theorem updates_of_pUpdate {i : Instr} {r : Reg} {mask value : Word} {new : List (Nat × Bool)}
    (hrec : encode i = .record (packP 2 r.offset mask value)) (hexec : ∀ s, exec i s = .next (pUpdate r mask value s))
    (hbits : ∀ old, bitsSet new old (underMask mask old value)) : updates i r new :=
  fun s => ⟨_, _, hrec, hbits (s.per.get r), hexec s⟩

/-- A micro-operation that is one `PClear`, whose record is its encoding, makes its flag 0. -/
theorem updates_of_pClear {i : Instr} {n : Nat}
    (hrec : encode i = .record (packP 3 Reg.stat1.offset (maskBit n) 0)) (hexec : ∀ s, exec i s = .next (pClear n s)) :
    updates i .stat1 [(n, false)] :=
  fun s => ⟨_, _, hrec, bitsSet_clearBit s.per.stat1 n, hexec s⟩

/-- Settles O14: each update is one `PUpdate`, and its mask has the bits of the named fields and no other. -/
theorem fieldUpdates : Obligations.FieldUpdates := by
  unfold Obligations.FieldUpdates
  refine ⟨?_, ?_, ?_, ?_, ?_, ?_, fun d => ?_, fun fs duty c => ?_, fun r => ?_⟩
  · exact updates_of_pUpdate rfl exec_pSetStart (bitsSet_underMask (by decide) (by decide))
  · exact updates_of_pUpdate rfl exec_pSetStartAck (bitsSet_underMask (by decide) (by decide))
  · exact updates_of_pUpdate rfl exec_pNackStop (bitsSet_underMask (by decide) (by decide))
  · exact updates_of_pUpdate rfl exec_pSetStop (bitsSet_underMask (by decide) (by decide))
  · exact updates_of_pUpdate rfl exec_pPeOff (bitsSet_underMask (by decide) (by decide))
  · exact updates_of_pUpdate rfl exec_pPeOn (bitsSet_underMask (by decide) (by decide))
  · exact updates_of_pUpdate (by rw [← zeros_append_six_eq]; rfl) (exec_pWrFreq · d) (bitsSet_lowSix d)
  · exact updates_of_pUpdate (by rw [ccrImage_eq_ccrValue]; rfl) (exec_pWrCcr · fs duty c) (bitsSet_ccr fs duty c)
  · exact updates_of_pUpdate (by rw [← zeros_append_six_eq]; rfl) (exec_pWrTrise · r) (bitsSet_lowSix r)

/-- Settles O15: each clear is one `PClear` of its flag, and a read has every bit the environment answers with. -/
theorem flagClears : Obligations.FlagClears := by
  unfold Obligations.FlagClears
  refine ⟨updates_of_pClear rfl exec_pClrTimeout, updates_of_pClear rfl exec_pClrPecerr,
    updates_of_pClear rfl exec_pClrOvr, updates_of_pClear rfl exec_pClrAf, updates_of_pClear rfl exec_pClrArlo,
    updates_of_pClear rfl exec_pClrBerr, fun s k hk => ?_⟩
  rw [readValue_stat1, hasBit_stat1Answer, hk, Bool.true_or]

/-! ### The data write -/

/-- Settles O16: the whole register takes the byte extended with zeros. -/
theorem dataWrite : Obligations.DataWrite := by
  unfold Obligations.DataWrite
  exact fun b s => ⟨dataWord b, toNat_dataWord b, exec_pWrData s b⟩

/-! ### Reads -/

/-- The state after a read, by its parts (20_memory.md R62). -/
theorem pRead_eq_afterReadOf (r : Reg) (s : State) :
    pRead r s = afterReadOf (s.per.afterRead r (s.readValue r)) (packP 0 r.offset 0 0) (s.readValue r) s := rfl

/-- The flags of `STAT1` that stay 1 until they are cleared, by number (20_memory.md R71; 10_state.md R42). -/
theorem hasBit_stickyStat1 (k : Nat) : hasBit stickyStat1 k = decide (k ∈ [1, 8, 9, 10, 11, 12, 14]) := by
  by_cases hk : k < 16
  · revert k
    decide
  · have hlist : k ∉ [1, 8, 9, 10, 11, 12, 14] := by simp; omega
    rw [decide_eq_false hlist]
    exact BitVec.getLsbD_of_ge _ _ (by omega)

/-- Settles O17: the value is that of `stat1Answer`, and the read's own effects are those of `afterRead`. -/
theorem statusRead : Obligations.StatusRead := by
  unfold Obligations.StatusRead
  refine fun s => ⟨s.readValue .stat1, fun k => ?_, ?_⟩
  · rw [readValue_stat1, hasBit_stat1Answer, hasBit_stickyStat1, Bool.and_comm (hasBit s.per.stat1 k)]
  · rw [exec_pRdStat1, pRead_eq_afterReadOf]
    rfl

/-- Settles O18: the read clears the address latch where the last `STAT1` read saw it (log 25). -/
theorem secondaryStatusRead : Obligations.SecondaryStatusRead := by
  unfold Obligations.SecondaryStatusRead
  refine fun s => ⟨(s.per.afterRead .stat2 s.env.answer).stat1, ?_, ?_⟩
  · change bitsSet _ s.per.stat1 (if s.per.addrRead then clearBit s.per.stat1 Bit.addr else s.per.stat1)
    cases s.per.addrRead with
    | false => exact bitsSet_nil s.per.stat1
    | true => exact bitsSet_clearBit s.per.stat1 Bit.addr
  · rw [exec_pRdStat2, pRead_eq_afterReadOf]
    rfl

/-- Settles O19: the read clears `RXNE` and takes the acknowledge decision (log 26). -/
theorem dataRead : Obligations.DataRead := by
  unfold Obligations.DataRead
  refine fun s => ⟨clearBit s.per.stat1 Bit.rxne, bitsSet_clearBit s.per.stat1 Bit.rxne, ?_⟩
  rw [exec_pRdData, pRead_eq_afterReadOf]
  rfl

/-- Settles O20: the value is that of `ctrl1Answer`, bit by bit. -/
theorem controlRead : Obligations.ControlRead := by
  unfold Obligations.ControlRead
  intro s
  have hbit : ∀ k, hasBit (s.readValue .ctrl1) k =
      if k = 0 ∨ k = 10 then hasBit s.per.ctrl1 k
      else if k = 8 ∨ k = 9 then hasBit s.per.ctrl1 k && hasBit s.env.answer k
      else hasBit s.env.answer k := fun k => by rw [readValue_ctrl1, hasBit_ctrl1Answer]
  refine ⟨s.readValue .ctrl1, hbit 0, hbit 10, hbit 8, hbit 9, fun k hk => ?_, ?_⟩
  · simp only [List.mem_cons, List.not_mem_nil, or_false, not_or] at hk
    obtain ⟨h0, h8, h9, h10⟩ := hk
    simp [hbit k, h0, h8, h9, h10]
  · rw [exec_pRdCtrl1, pRead_eq_afterReadOf]
    rfl

end Sys2Proof.Machine
end

section
/-! PROOF. The decoder and the encoder (30_encoding.md R91 to R95, R101 to R104). What a descriptor decodes to is said
once, by its fields (`carries`, `decodeDescriptor_eq_ok_iff`); a record decodes to an instruction exactly when it is that
instruction's encoding (`decodeRecord_eq_ok_iff`). -/

namespace Sys2Proof

/-! ### Descriptors -/

/-- The fields of descriptor `d` are those of command `i`: its opcode, zeros in the bits that must be zero, and its
operands (30_encoding.md R92 to R95, R104). -/
def carries (d : Descriptor) : Instr → Prop
  | .init freq scl sda =>
    descOpcode d = 0x01 ∧ cfReserved d = 0 ∧
      (cfFreq d).toNat = freq ∧ (cfScl d == 1) = scl ∧ (cfSda d == 1) = sda
  | .write a w =>
    descOpcode d = 0x02 ∧ ctReservedHigh d = 0 ∧ ctRlen d = 0 ∧ ctReservedLow d = 0 ∧
      ctAddr7 d = a ∧ (ctWlen d).toNat = w
  | .read a n =>
    descOpcode d = 0x03 ∧ ctReservedHigh d = 0 ∧ ctWlen d = 0 ∧ ctReservedLow d = 0 ∧
      ctAddr7 d = a ∧ (ctRlen d).toNat = n
  | .wrrd a w n =>
    descOpcode d = 0x04 ∧ ctReservedHigh d = 0 ∧ ctReservedLow d = 0 ∧
      ctAddr7 d = a ∧ (ctWlen d).toNat = w ∧ (ctRlen d).toNat = n
  | .reconf freq =>
    descOpcode d = 0x05 ∧ cfReserved d = 0 ∧ cfSda d = 0 ∧ cfScl d = 0 ∧ (cfFreq d).toNat = freq
  | .xiter => descOpcode d = 0x06
  | .xact => descOpcode d = 0x07
  | _ => False

theorem whenReserved_eq_ok_iff {ok : Bool} {i j : Instr} : whenReserved ok i = .ok j ↔ ok = true ∧ i = j := by
  cases ok <;> simp [whenReserved]

/-- A descriptor decodes to the command whose fields it has (30_encoding.md R95). -/
theorem decodeDescriptor_of_carries {d : Descriptor} {i : Instr} (h : carries d i) : decodeDescriptor d = .ok i := by
  cases i with
  | init freq scl sda =>
    obtain ⟨hop, hres, rfl, rfl, rfl⟩ := h
    simp [decodeDescriptor, hop, hres, whenReserved_eq_ok_iff]
  | write a w =>
    obtain ⟨hop, hhigh, hrlen, hlow, rfl, rfl⟩ := h
    simp [decodeDescriptor, hop, hhigh, hrlen, hlow, whenReserved_eq_ok_iff]
  | read a n =>
    obtain ⟨hop, hhigh, hwlen, hlow, rfl, rfl⟩ := h
    simp [decodeDescriptor, hop, hhigh, hwlen, hlow, whenReserved_eq_ok_iff]
  | wrrd a w n =>
    obtain ⟨hop, hhigh, hlow, rfl, rfl, rfl⟩ := h
    simp [decodeDescriptor, hop, hhigh, hlow, whenReserved_eq_ok_iff]
  | reconf freq =>
    obtain ⟨hop, hres, hsda, hscl, rfl⟩ := h
    simp [decodeDescriptor, hop, hres, hsda, hscl, whenReserved_eq_ok_iff]
  | xiter =>
    have hop : descOpcode d = 0x06 := h
    simp [decodeDescriptor, hop]
  | xact =>
    have hop : descOpcode d = 0x07 := h
    simp [decodeDescriptor, hop]
  | _ => exact h.elim

/-- A descriptor decodes to no other instruction (30_encoding.md R103, R104). -/
theorem carries_of_decodeDescriptor {d : Descriptor} {i : Instr} (h : decodeDescriptor d = .ok i) : carries d i := by
  unfold decodeDescriptor at h
  split at h
  case isTrue hop =>
    obtain ⟨hres, rfl⟩ := whenReserved_eq_ok_iff.1 h
    exact ⟨hop, eq_of_beq hres, rfl, rfl, rfl⟩
  split at h
  case isTrue hop =>
    obtain ⟨hres, rfl⟩ := whenReserved_eq_ok_iff.1 h
    simp only [Bool.and_eq_true, beq_iff_eq] at hres
    obtain ⟨⟨hhigh, hrlen⟩, hlow⟩ := hres
    exact ⟨hop, hhigh, hrlen, hlow, rfl, rfl⟩
  split at h
  case isTrue hop =>
    obtain ⟨hres, rfl⟩ := whenReserved_eq_ok_iff.1 h
    simp only [Bool.and_eq_true, beq_iff_eq] at hres
    obtain ⟨⟨hhigh, hwlen⟩, hlow⟩ := hres
    exact ⟨hop, hhigh, hwlen, hlow, rfl, rfl⟩
  split at h
  case isTrue hop =>
    obtain ⟨hres, rfl⟩ := whenReserved_eq_ok_iff.1 h
    simp only [Bool.and_eq_true, beq_iff_eq] at hres
    obtain ⟨hhigh, hlow⟩ := hres
    exact ⟨hop, hhigh, hlow, rfl, rfl, rfl⟩
  split at h
  case isTrue hop =>
    obtain ⟨hres, rfl⟩ := whenReserved_eq_ok_iff.1 h
    simp only [Bool.and_eq_true, beq_iff_eq] at hres
    obtain ⟨⟨hcf, hsda⟩, hscl⟩ := hres
    exact ⟨hop, hcf, hsda, hscl, rfl⟩
  split at h
  case isTrue hop =>
    cases h
    exact hop
  split at h
  case isTrue hop =>
    cases h
    exact hop
  cases h

/-- What a descriptor decodes to, by its fields. -/
theorem decodeDescriptor_eq_ok_iff {d : Descriptor} {i : Instr} : decodeDescriptor d = .ok i ↔ carries d i :=
  ⟨carries_of_decodeDescriptor, decodeDescriptor_of_carries⟩

/-! ### Records -/

/-- The record of a micro-operation decodes to it (30_encoding.md R102). -/
theorem decodeRecord_encode {r : Record} {i : Instr} (h : encode i = .record r) : decodeRecord r = .ok i := by
  cases i with
  | init | write | read | wrrd | reconf | xiter | xact => cases h
  | pWrData b => cases h; simp [decodeRecord, decodePWrite]
  | pWrFreq d => cases h; simp [decodeRecord, decodePUpdate]
  | pWrCcr fs duty c => cases h; simp [decodeRecord, decodePUpdate]
  | pWrTrise d => cases h; simp [decodeRecord, decodePUpdate]
  | _ => cases h; rfl

theorem encode_of_decodePRead {off : BitVec 6} {mask value : Word} {i : Instr} (h : decodePRead off mask value = .ok i) :
    encode i = .record (packP 0 off mask value) := by
  unfold decodePRead at h
  split at h
  · next hz =>
    obtain ⟨rfl, rfl⟩ := hz
    repeat' split at h
    all_goals cases h <;> subst_vars <;> rfl
  · cases h

theorem encode_of_decodePWrite {off : BitVec 6} {mask value : Word} {i : Instr}
    (h : decodePWrite off mask value = .ok i) : encode i = .record (packP 1 off mask value) := by
  unfold decodePWrite at h
  split at h
  · next hf =>
    obtain ⟨rfl, rfl, hhigh⟩ := hf
    cases h
    rw [encode, zeros_append_byte value hhigh]
  · cases h

theorem encode_of_decodePUpdate {off : BitVec 6} {mask value : Word} {i : Instr}
    (h : decodePUpdate off mask value = .ok i) : encode i = .record (packP 2 off mask value) := by
  unfold decodePUpdate at h
  split at h
  case isTrue hoff =>
    subst hoff
    repeat' split at h
    all_goals cases h <;> (obtain ⟨rfl, rfl⟩ := ‹_ ∧ _›; rfl)
  split at h
  case isTrue hoff =>
    subst hoff
    split at h <;> cases h
    obtain ⟨rfl, hhigh⟩ := ‹_ ∧ _›
    rw [encode, zeros_append_six value hhigh]
  split at h
  case isTrue hoff =>
    subst hoff
    split at h <;> cases h
    obtain ⟨rfl, hzero⟩ := ‹_ ∧ _›
    exact congrArg (Image.record ∘ packP 2 0x1C 0xCFFF) (ccrValue_fields value hzero)
  split at h
  case isTrue hoff =>
    subst hoff
    split at h <;> cases h
    obtain ⟨rfl, hhigh⟩ := ‹_ ∧ _›
    rw [encode, zeros_append_six value hhigh]
  cases h

theorem encode_of_decodePClear {off : BitVec 6} {mask value : Word} {i : Instr}
    (h : decodePClear off mask value = .ok i) : encode i = .record (packP 3 off mask value) := by
  unfold decodePClear at h
  split at h
  · next hz =>
    obtain ⟨rfl, rfl⟩ := hz
    repeat' split at h
    all_goals cases h <;> subst_vars <;> rfl
  · cases h

theorem encode_of_decodeRecord {r : Record} {i : Instr} (h : decodeRecord r = .ok i) : encode i = .record r := by
  rw [← packP_fields r]
  unfold decodeRecord at h
  split at h
  case isTrue hk => rw [hk]; exact encode_of_decodePRead h
  split at h
  case isTrue hk => rw [hk]; exact encode_of_decodePWrite h
  split at h
  case isTrue hk => rw [hk]; exact encode_of_decodePUpdate h
  have hk : recKind r = 3 := by
    have hall : ∀ k : BitVec 2, k ≠ 0 → k ≠ 1 → k ≠ 2 → k = 3 := by decide
    exact hall _ ‹_› ‹_› ‹_›
  rw [hk]; exact encode_of_decodePClear h

/-- A record decodes to an instruction exactly when it is that instruction's encoding (30_encoding.md R102). -/
theorem decodeRecord_eq_ok_iff {r : Record} {i : Instr} : decodeRecord r = .ok i ↔ encode i = .record r :=
  ⟨encode_of_decodeRecord, decodeRecord_encode⟩

/-! ### The round trip -/

/-- The descriptor of a well-formed command has the command's fields. -/
theorem carries_encode {d : Descriptor} {i : Instr} (hw : i.wellFormed = true) (h : encode i = .descriptor d) :
    carries d i := by
  cases i with
  | init freq scl sda => cases h; simpa [carries, Instr.wellFormed] using hw
  | write a w => cases h; simpa [carries, Instr.wellFormed] using hw
  | read a n => cases h; simpa [carries, Instr.wellFormed] using hw
  | wrrd a w n => cases h; simpa [carries, Instr.wellFormed] using hw
  | reconf freq => cases h; simpa [carries, Instr.wellFormed] using hw
  | xiter => cases h; exact descOpcode_packCT ..
  | xact => cases h; exact descOpcode_packCT ..
  | _ => cases h

/-- Settles O1: a descriptor is decoded by its fields, a record by being the encoding. -/
theorem decodeOfEncode : Obligations.DecodeOfEncode := by
  unfold Obligations.DecodeOfEncode
  intro i hw
  cases h : encode i with
  | descriptor d => exact decodeDescriptor_of_carries (carries_encode hw h)
  | record r => exact decodeRecord_encode h

end Sys2Proof
end

section
/-! PROOF. What a decoded descriptor is (30_encoding.md R92 to R95, R103, R104): the encoding of what it decodes to, the
row of the opcode map it matches, where its operands stand, and which descriptors select no command. -/

namespace Sys2Proof

/-! ### The encoding of what was decoded -/

/-- A command's operands fit their fields. -/
theorem wellFormed_of_carries {d : Descriptor} {i : Instr} (h : carries d i) : i.wellFormed = true := by
  cases i with
  | init freq scl sda =>
    obtain ⟨-, -, rfl, -, -⟩ := h
    exact decide_eq_true (cfFreq d).isLt
  | write a w =>
    obtain ⟨-, -, -, -, -, rfl⟩ := h
    exact decide_eq_true (ctWlen d).isLt
  | read a n =>
    obtain ⟨-, -, -, -, -, rfl⟩ := h
    exact decide_eq_true (ctRlen d).isLt
  | wrrd a w n =>
    obtain ⟨-, -, -, -, rfl, rfl⟩ := h
    simpa [Instr.wellFormed] using ⟨(ctWlen d).isLt, (ctRlen d).isLt⟩
  | reconf freq =>
    obtain ⟨-, -, -, -, rfl⟩ := h
    exact decide_eq_true (cfFreq d).isLt
  | _ => rfl

/-- A descriptor is the encoding of its command, but for the operand bits that are not examined (30_encoding.md R94). -/
theorem encode_of_carries {d : Descriptor} {i : Instr} (h : carries d i) (hiter : i ≠ .xiter) (hact : i ≠ .xact) :
    encode i = .descriptor d := by
  cases i with
  | init freq scl sda =>
    obtain ⟨hop, hres, rfl, rfl, rfl⟩ := h
    have hd := packCF_fields d hres
    rw [hop] at hd
    simpa [encode] using hd
  | write a w =>
    obtain ⟨hop, hhigh, hrlen, hlow, rfl, rfl⟩ := h
    have hd := packCT_fields d hhigh hlow
    rw [hop, hrlen] at hd
    simpa [encode] using hd
  | read a n =>
    obtain ⟨hop, hhigh, hwlen, hlow, rfl, rfl⟩ := h
    have hd := packCT_fields d hhigh hlow
    rw [hop, hwlen] at hd
    simpa [encode] using hd
  | wrrd a w n =>
    obtain ⟨hop, hhigh, hlow, rfl, rfl, rfl⟩ := h
    have hd := packCT_fields d hhigh hlow
    rw [hop] at hd
    simpa [encode] using hd
  | reconf freq =>
    obtain ⟨hop, hres, hsda, hscl, rfl⟩ := h
    have hd := packCF_fields d hres
    rw [hop, hsda, hscl] at hd
    simpa [encode] using hd
  | xiter => exact absurd rfl hiter
  | xact => exact absurd rfl hact
  | _ => exact h.elim

/-- Settles O2: the fields a descriptor decodes by are all its bits. -/
theorem encodeOfDecodedDescriptor : Obligations.EncodeOfDecodedDescriptor := by
  unfold Obligations.EncodeOfDecodedDescriptor
  intro d i h
  have hd := carries_of_decodeDescriptor h
  exact ⟨wellFormed_of_carries hd, decodeDescriptor_isPort h, encode_of_carries hd⟩

/-- A port micro-operation has no length or frequency that could be too wide. -/
theorem wellFormed_of_isPort {i : Instr} (h : i.isPort = true) : i.wellFormed = true := by
  cases i with
  | init | write | read | wrrd | reconf | xiter | xact => cases h
  | _ => rfl

/-- Settles O3: a record that decodes is the encoding of what it decodes to. -/
theorem encodeOfDecodedRecord : Obligations.EncodeOfDecodedRecord := by
  unfold Obligations.EncodeOfDecodedRecord
  intro r i h
  have hport := decodeRecord_isPort h
  exact ⟨wellFormed_of_isPort hport, hport, encode_of_decodeRecord h⟩

/-! ### The opcode map -/

/-- Two descriptors are equal when their fields of format `CT` are. -/
theorem eq_iff_fields_CT {x y : Descriptor} :
    x = y ↔ descOpcode x = descOpcode y ∧ ctReservedHigh x = ctReservedHigh y ∧ ctAddr7 x = ctAddr7 y ∧
      ctWlen x = ctWlen y ∧ ctRlen x = ctRlen y ∧ ctReservedLow x = ctReservedLow y := by
  refine ⟨fun h => by simp [h], fun ⟨hop, hhigh, haddr, hwlen, hrlen, hlow⟩ => ?_⟩
  rw [← slices_CT x, ← slices_CT y, hop, hhigh, haddr, hwlen, hrlen, hlow]

/-- Two descriptors are equal when their fields of format `CF` are. -/
theorem eq_iff_fields_CF {x y : Descriptor} :
    x = y ↔ descOpcode x = descOpcode y ∧ cfReserved x = cfReserved y ∧ cfSda x = cfSda y ∧ cfScl x = cfScl y ∧
      cfFreq x = cfFreq y := by
  refine ⟨fun h => by simp [h], fun ⟨hop, hres, hsda, hscl, hfreq⟩ => ?_⟩
  rw [← slices_CF x, ← slices_CF y, hop, hres, hsda, hscl, hfreq]

/-- A field all of whose bits are under the mask. -/
theorem and_of_eq_allOnes {n : Nat} (x : BitVec n) {m : BitVec n} (h : m = BitVec.allOnes n) : x &&& m = x := by
  rw [h, BitVec.and_allOnes]

/-! The rows, each mask taken apart into the fields it covers. -/

section Rows
variable (d : Descriptor)

theorem and_eq_init_iff :
    d &&& 0xFFFFFFFC00000000 = 0x0100000000000000 ↔ descOpcode d = 0x01 ∧ cfReserved d = 0 := by
  simp (disch := decide) [eq_iff_fields_CF, descOpcode, cfReserved, cfSda, cfScl, cfFreq, BitVec.extractLsb'_and,
    and_of_eq_allOnes]

theorem and_eq_write_iff :
    d &&& 0xFF800000FFFFFFFF = 0x0200000000000000 ↔
      descOpcode d = 0x02 ∧ ctReservedHigh d = 0 ∧ ctRlen d = 0 ∧ ctReservedLow d = 0 := by
  simp (disch := decide) [eq_iff_fields_CT, descOpcode, ctReservedHigh, ctAddr7, ctWlen, ctRlen, ctReservedLow,
    BitVec.extractLsb'_and, and_of_eq_allOnes]

theorem and_eq_read_iff :
    d &&& 0xFF80FFFF0000FFFF = 0x0300000000000000 ↔
      descOpcode d = 0x03 ∧ ctReservedHigh d = 0 ∧ ctWlen d = 0 ∧ ctReservedLow d = 0 := by
  simp (disch := decide) [eq_iff_fields_CT, descOpcode, ctReservedHigh, ctAddr7, ctWlen, ctRlen, ctReservedLow,
    BitVec.extractLsb'_and, and_of_eq_allOnes]

theorem and_eq_wrrd_iff :
    d &&& 0xFF8000000000FFFF = 0x0400000000000000 ↔
      descOpcode d = 0x04 ∧ ctReservedHigh d = 0 ∧ ctReservedLow d = 0 := by
  simp (disch := decide) [eq_iff_fields_CT, descOpcode, ctReservedHigh, ctAddr7, ctWlen, ctRlen, ctReservedLow,
    BitVec.extractLsb'_and, and_of_eq_allOnes]

theorem and_eq_reconf_iff :
    d &&& 0xFFFFFFFF00000000 = 0x0500000000000000 ↔
      descOpcode d = 0x05 ∧ cfReserved d = 0 ∧ cfSda d = 0 ∧ cfScl d = 0 := by
  simp (disch := decide) [eq_iff_fields_CF, descOpcode, cfReserved, cfSda, cfScl, cfFreq, BitVec.extractLsb'_and,
    and_of_eq_allOnes]

theorem and_eq_xiter_iff : d &&& 0xFF00000000000000 = 0x0600000000000000 ↔ descOpcode d = 0x06 := by
  simp (disch := decide) [eq_iff_fields_CF, descOpcode, cfReserved, cfSda, cfScl, cfFreq, BitVec.extractLsb'_and,
    and_of_eq_allOnes]

theorem and_eq_xact_iff : d &&& 0xFF00000000000000 = 0x0700000000000000 ↔ descOpcode d = 0x07 := by
  simp (disch := decide) [eq_iff_fields_CF, descOpcode, cfReserved, cfSda, cfScl, cfFreq, BitVec.extractLsb'_and,
    and_of_eq_allOnes]

end Rows

/-- Settles O4: the mask of a row covers the fields that must have one value. -/
theorem opcodeMap : Obligations.OpcodeMap := by
  unfold Obligations.OpcodeMap
  intro d
  refine ⟨?_, ?_, ?_, ?_, ?_, ?_, ?_, fun i h => decodeDescriptor_isPort h⟩
  all_goals simp only [decodeDescriptor_eq_ok_iff, carries]
  · rw [and_eq_init_iff]; simp
  · rw [and_eq_write_iff]; simp
  · rw [and_eq_read_iff]; simp
  · rw [and_eq_wrrd_iff]; simp
  · rw [and_eq_reconf_iff]; simp
  · exact and_eq_xiter_iff d
  · exact and_eq_xact_iff d

/-! ### The fields as numbers -/

theorem toNat_slice (d : Descriptor) (lo n : Nat) : (d.extractLsb' lo n).toNat = d.toNat / 2 ^ lo % 2 ^ n := by
  rw [BitVec.extractLsb'_toNat, Nat.shiftRight_eq_div_pow]

section Numbers
variable (d : Descriptor)

theorem toNat_descOpcode : (descOpcode d).toNat = d.toNat / 2 ^ 56 := by
  have hd := d.isLt
  rw [descOpcode, toNat_slice]
  omega

theorem toNat_ctReservedHigh : (ctReservedHigh d).toNat = d.toNat / 2 ^ 55 % 2 := toNat_slice d 55 1
theorem toNat_ctAddr7 : (ctAddr7 d).toNat = d.toNat / 2 ^ 48 % 2 ^ 7 := toNat_slice d 48 7
theorem toNat_ctWlen : (ctWlen d).toNat = d.toNat / 2 ^ 32 % 2 ^ 16 := toNat_slice d 32 16
theorem toNat_ctRlen : (ctRlen d).toNat = d.toNat / 2 ^ 16 % 2 ^ 16 := toNat_slice d 16 16
theorem toNat_ctReservedLow : (ctReservedLow d).toNat = d.toNat % 2 ^ 16 := by
  rw [ctReservedLow, toNat_slice, Nat.pow_zero, Nat.div_one]
theorem toNat_cfReserved : (cfReserved d).toNat = d.toNat / 2 ^ 34 % 2 ^ 22 := toNat_slice d 34 22
theorem toNat_cfSda : (cfSda d).toNat = d.toNat / 2 ^ 33 % 2 := toNat_slice d 33 1
theorem toNat_cfScl : (cfScl d).toNat = d.toNat / 2 ^ 32 % 2 := toNat_slice d 32 1
theorem toNat_cfFreq : (cfFreq d).toNat = d.toNat % 2 ^ 32 := by
  rw [cfFreq, toNat_slice, Nat.pow_zero, Nat.div_one]

/-- A one-bit field read as a flag is the bit. -/
theorem slice_eq_one (k : Nat) : (d.extractLsb' k 1 == 1) = d.getLsbD k := by
  have hbit : ∀ x : BitVec 1, (x == 1) = x.getLsbD 0 := by decide
  rw [hbit, BitVec.getLsbD_extractLsb', Nat.add_zero]
  exact Bool.true_and _

end Numbers

/-- Settles O5: the operands of a descriptor are its fields, each the number of its bits. -/
theorem descriptorFields : Obligations.DescriptorFields := by
  unfold Obligations.DescriptorFields
  intro d
  simp only [decodeDescriptor_eq_ok_iff]
  refine ⟨?_, ?_, ?_, ?_, ?_⟩
  · rintro _ _ _ ⟨-, -, rfl, rfl, rfl⟩
    exact ⟨toNat_cfFreq d, slice_eq_one d 32, slice_eq_one d 33⟩
  · rintro _ _ ⟨-, -, -, -, rfl, rfl⟩
    exact ⟨toNat_ctAddr7 d, toNat_ctWlen d⟩
  · rintro _ _ ⟨-, -, -, -, rfl, rfl⟩
    exact ⟨toNat_ctAddr7 d, toNat_ctRlen d⟩
  · rintro _ _ _ ⟨-, -, -, rfl, rfl, rfl⟩
    exact ⟨toNat_ctAddr7 d, toNat_ctWlen d, toNat_ctRlen d⟩
  · rintro _ ⟨-, -, -, -, rfl⟩
    exact toNat_cfFreq d

/-! ### Illegal descriptors -/

/-- The opcodes that select a command (30_encoding.md R95). -/
theorem opcode_of_carries {d : Descriptor} {i : Instr} (h : carries d i) :
    1 ≤ (descOpcode d).toNat ∧ (descOpcode d).toNat ≤ 7 := by
  cases i with
  | init | write | read | wrrd | reconf => rw [h.1]; decide
  | xiter | xact => rw [show descOpcode d = _ from h]; decide
  | _ => exact h.elim

/-- The fields that are 0 in a descriptor that decodes, by opcode (30_encoding.md R104). -/
theorem reserved_of_carries {d : Descriptor} {i : Instr} (h : carries d i) :
    (descOpcode d = 0x01 → cfReserved d = 0) ∧
    (descOpcode d = 0x02 → ctReservedHigh d = 0 ∧ ctRlen d = 0 ∧ ctReservedLow d = 0) ∧
    (descOpcode d = 0x03 → ctReservedHigh d = 0 ∧ ctWlen d = 0 ∧ ctReservedLow d = 0) ∧
    (descOpcode d = 0x04 → ctReservedHigh d = 0 ∧ ctReservedLow d = 0) ∧
    (descOpcode d = 0x05 → cfReserved d = 0 ∧ cfSda d = 0 ∧ cfScl d = 0) := by
  cases i with
  | init => obtain ⟨hop, hres, -⟩ := h; simp [hop, hres]
  | write => obtain ⟨hop, hhigh, hrlen, hlow, -⟩ := h; simp [hop, hhigh, hrlen, hlow]
  | read => obtain ⟨hop, hhigh, hwlen, hlow, -⟩ := h; simp [hop, hhigh, hwlen, hlow]
  | wrrd => obtain ⟨hop, hhigh, hlow, -⟩ := h; simp [hop, hhigh, hlow]
  | reconf => obtain ⟨hop, hres, hsda, hscl, -⟩ := h; simp [hop, hres, hsda, hscl]
  | xiter | xact => simp [show descOpcode d = _ from h]
  | _ => exact h.elim

end Sys2Proof

namespace Sys2Proof.Machine

/-- Settles O6: every descriptor that decodes has an opcode from 1 to 7. -/
theorem illegalOpcodes : Obligations.IllegalOpcodes := by
  unfold Obligations.IllegalOpcodes
  intro c s hop
  have hnone : ∀ i, decodeDescriptor c.desc ≠ .ok i := fun i h => by
    have hrange := opcode_of_carries (carries_of_decodeDescriptor h)
    rw [toNat_descOpcode] at hrange
    omega
  exact ⟨hnone, (offer_illegal hnone).1⟩

/-- Settles O7: in a descriptor that decodes the fields that must be 0 are 0. -/
theorem reservedFields : Obligations.ReservedFields := by
  unfold Obligations.ReservedFields
  intro c s hres
  have hnone : ∀ i, decodeDescriptor c.desc ≠ .ok i := fun i h => by
    obtain ⟨hinit, hwrite, hread, hwrrd, hreconf⟩ := reserved_of_carries (carries_of_decodeDescriptor h)
    simp only [← BitVec.toNat_inj, toNat_descOpcode, toNat_cfReserved, toNat_ctReservedHigh, toNat_ctRlen, toNat_ctWlen,
      toNat_ctReservedLow, toNat_cfSda, toNat_cfScl, BitVec.reduceToNat] at hinit hwrite hread hwrrd hreconf
    rcases hres with ⟨hop, hne⟩ | ⟨hop, hne⟩ | ⟨hop, hne⟩ | ⟨hop, hne⟩ | ⟨hop, hne⟩
    · exact hne (hinit hop)
    · have := hwrite hop
      omega
    · have := hread hop
      omega
    · have := hwrrd hop
      omega
    · have := hreconf hop
      omega
  exact ⟨hnone, (offer_illegal hnone).1⟩

end Sys2Proof.Machine
end

section
/-! PROOF. Words written out (30_encoding.md R92 to R95, R102), the address byte (R96), the frame of the port
micro-operations (R101, R102) and the completion codes (R100, R105). -/

namespace Sys2Proof.Machine

/-! ### Words and the address byte -/

/-- Settles O9: the decoder evaluates on every word. -/
theorem decodedWords : Obligations.DecodedWords := by
  unfold Obligations.DecodedWords
  exact ⟨rfl, rfl, rfl, rfl, rfl, rfl, rfl, rfl, rfl, rfl, rfl, rfl, rfl, rfl, rfl, rfl⟩

/-- Settles O8: the address byte as a number, and bit by bit. -/
theorem addressByte : Obligations.AddressByte := by
  unfold Obligations.AddressByte
  intro a dir
  refine ⟨?_, addrByte_bit_zero a dir, addrByte_bit_succ a dir⟩
  rw [toNat_addrByte]
  cases dir <;> rfl

/-! ### The frame of a micro-operation -/

/-- A micro-operation is encoded as a record (30_encoding.md R101). -/
theorem encode_of_isPort {i : Instr} (h : i.isPort = true) : ∃ rec, encode i = .record rec := by
  cases i with
  | init | write | read | wrrd | reconf | xiter | xact => cases h
  | _ => exact ⟨_, rfl⟩

/-- Settles O21: a micro-operation leaves its record and keeps everything but the peripheral, the environment and the
value read. -/
theorem microOpFrame : Obligations.MicroOpFrame := by
  unfold Obligations.MicroOpFrame
  intro i s hi
  obtain ⟨rec, hrec⟩ := encode_of_isPort hi
  obtain ⟨t, v, ht, htrace⟩ := exec_record i rec hrec s
  have hframe := exec_port_frame hi ht
  have hhost : t.host = s.host := by rw [hframe]
  exact ⟨t, rec, v, ht, hrec, htrace, fun k => by rw [hhost], fun k => by rw [hhost], hframe⟩

/-! ### The completion codes -/

/-- What a result is allowed to be, by its code (30_encoding.md R105). -/
theorem resultOk_iff (s : State) :
    resultOk s = true ↔ ∀ r, s.result = some r → resultCode r ≠ 1 ∧ resultCode r ≠ 7 := by
  unfold resultOk
  cases s.result with
  | none => simp
  | some r => cases r <;> simp [resultCode]

theorem resultOk_congr {s t : State} (h : t.result = s.result) : resultOk t = resultOk s := by
  simp only [resultOk, h]

/-- The codes are the numbers 0 to 7 (30_encoding.md R100). -/
theorem exists_resultCode_iff (n : Nat) : (∃ r, resultCode r = n) ↔ n ≤ 7 := by
  constructor
  · rintro ⟨r, rfl⟩
    cases r <;> decide
  · intro hn
    match n, hn with
    | 0, _ => exact ⟨.ok, rfl⟩
    | 1, _ => exact ⟨.bus, rfl⟩
    | 2, _ => exact ⟨.arbitration, rfl⟩
    | 3, _ => exact ⟨.nack, rfl⟩
    | 4, _ => exact ⟨.timeout, rfl⟩
    | 5, _ => exact ⟨.crc, rfl⟩
    | 6, _ => exact ⟨.overrun, rfl⟩
    | 7, _ => exact ⟨.zeroLengthTransfer, rfl⟩

/-- An error flag is reported as neither of the codes that nothing raises (42_error_flag_monitor.md R184). -/
theorem resultOk_complete_errResult (f : ErrFlag) (s : State) : resultOk (complete (errResult f) s) = true := by
  cases f <;> rfl

section Keeps
variable {s : State} (h : resultOk s = true)
include h

theorem resultOk_enterRead : resultOk (enterRead s) = true := by
  unfold enterRead
  split
  · rfl
  · exact h

theorem resultOk_afterPayload (g : Stage) : resultOk (afterPayload g s) = true := by
  unfold afterPayload
  split
  · exact h
  · exact resultOk_enterRead h
  all_goals exact h

theorem resultOk_afterBtf : resultOk (afterBtf s) = true := by
  unfold afterBtf
  split
  · exact h
  · exact resultOk_afterPayload h _

theorem resultOk_pollFlag {n : Nat} {go : State → State} (hgo : resultOk (go (storeSnap s)) = true) :
    resultOk (pollFlag n go s) = true := by
  unfold pollFlag
  split
  · exact hgo
  · exact h

theorem resultOk_afterMonitor : resultOk (afterMonitor s) = true := by
  unfold afterMonitor
  cases s.fsm with
  | start | addr | txe | rxne => exact resultOk_pollFlag h h
  | btf => exact resultOk_pollFlag h (resultOk_afterBtf (s := storeSnap s) h)
  | _ => exact h

theorem resultOk_afterStatusRead : resultOk (afterStatusRead s) = true := by
  unfold afterStatusRead
  split
  · exact h
  · split
    · exact h
    · exact resultOk_afterMonitor h

theorem resultOk_afterClearErr (f : ErrFlag) : resultOk (afterClearErr f s) = true := by
  unfold afterClearErr
  split
  · exact h
  · exact resultOk_complete_errResult f s

theorem resultOk_afterClearBerr (e : Option ErrFlag) : resultOk (afterClearBerr e s) = true := by
  cases e with
  | some f => exact resultOk_complete_errResult f s
  | none => exact resultOk_afterMonitor h

theorem resultOk_afterSecond : resultOk (afterSecond s) = true := by
  unfold afterSecond
  split
  · split <;> exact h
  · split
    · exact h
    · rfl
  · exact h

theorem resultOk_afterLatchClear : resultOk (afterLatchClear s) = true := by
  unfold afterLatchClear
  split
  · split
    · exact h
    · exact resultOk_afterPayload h _
  · split <;> exact h

theorem resultOk_afterDrain : resultOk (afterDrain s) = true := by
  unfold afterDrain
  split
  · exact h
  · split <;> exact h

theorem resultOk_afterLeave : resultOk (afterLeave s) = true := by
  unfold afterLeave
  cases s.fsm with
  | addrclr => exact resultOk_afterLatchClear h
  | rxne => exact resultOk_afterDrain h
  | _ => exact h

theorem resultOk_afterLeaveCtrl : resultOk (afterLeaveCtrl s) = true := by
  unfold afterLeaveCtrl
  split
  · split <;> exact h
  · exact h
  · exact h

theorem resultOk_afterCfg (k : CfgStep) : resultOk (afterCfg k s) = true := by
  cases k with
  | c10 | g4 => rfl
  | _ => exact h

theorem resultOk_advance : resultOk (advance s) = true :=
  advance_cases (P := fun t => resultOk t = true) (fun k _ => resultOk_afterCfg h k) fun _ =>
    ⟨fun _ => h, fun _ => resultOk_afterStatusRead h, fun f _ => resultOk_afterClearErr h f,
      fun e _ => resultOk_afterClearBerr h e, fun _ => resultOk_afterSecond h, fun _ => resultOk_afterLeave h,
      fun _ => resultOk_afterLeaveCtrl h⟩

theorem resultOk_cfgInternal (k : CfgStep) : resultOk (cfgInternal k s) = true := by
  have hcalc : ∀ k', resultOk (cfgCalculate k' s) = true := fun k' => by
    unfold cfgCalculate
    split <;> exact h
  cases k with
  | c6 | g1 => exact hcalc _
  | _ => exact h

/-- Acceptance raises no code but `Overrun`, of a read without a byte to receive (41_bus_sequencer.md R148). -/
theorem resultOk_exec_command {i : Instr} {t : State} (hi : i.isPort = false) (hx : exec i s = .next t) :
    resultOk t = true := by
  rcases exec_command_cases hi hx with ⟨-, -, hcmd⟩ | ⟨-, -, _, _, _, -, -, -, rfl⟩ | ⟨-, -, rfl⟩
  · rcases hcmd with ⟨_, _, -, rfl⟩ | ⟨_, n, -, rfl⟩ | ⟨_, _, _, -, rfl⟩ | ⟨_, -, -, -, rfl⟩
    · exact h
    · exact resultOk_enterRead (s := latchTransfer .read _ 0 n s) h
    · exact h
    · exact h
  · exact h
  · exact h

theorem resultOk_offer {c : HostCmd} {t : State} (ho : offer c s = .next t) : resultOk t = true := by
  rcases offer_cases ho with ⟨-, -, rfl⟩ | ⟨i, -, hi, hx⟩
  · exact h
  · have hreceive : resultOk (receive i c s) = true := by rw [resultOk_congr (receive_result i c s)]; exact h
    exact resultOk_exec_command hreceive hi hx

end Keeps

/-- A step raises no code but those of `errResult`, `Ok` and `Overrun` (60_exceptions.md R217, R223). -/
theorem resultOk_step {s t : State} (hs : resultOk s = true) (ht : step s = .next t) : resultOk t = true := by
  refine step_preserves (P := fun s => resultOk s = true) (C := fun _ => True)
    (inputs := fun _ _ _ h => h)
    (access := fun s i u h _ _ ha hu => ?_)
    (internal := fun _ k h _ _ => resultOk_cfgInternal h k)
    (lend := fun _ _ _ _ => trivial)
    (program := fun _ _ _ _ h => h)
    (command := fun _ _ _ _ h ho => resultOk_offer h ho)
    (reset := fun _ _ _ => rfl)
    (environment := fun _ _ _ h => h)
    (foreign := fun _ _ _ _ _ h => h)
    (write := fun _ _ _ _ h => h) hs ht
  have hframe := exec_port_frame (access_isPort ha) hu
  exact resultOk_advance (by rw [hframe]; exact h)

/-- Settles O55: the codes are those of the table, and no step raises `Bus` or `ZeroLengthTransfer`. -/
theorem resultInvariant : Obligations.ResultInvariant := by
  unfold Obligations.ResultInvariant
  exact ⟨fun r => by cases r <;> rfl, exists_resultCode_iff, fun _ _ => resultOk_step, resultOk_iff⟩

end Sys2Proof.Machine
end

section
/-! PROOF. The timing calculator (40_timing_calculator.md R121 to R132): what a call returns (`tcalcWith_outcome`), the
fields of a returned record, and the ranges and the order of `ccr` that follow from them. -/

namespace Sys2Proof.Machine

/-! ### What a call returns -/

/-- A divisor in range, as a range of the clock (40_timing_calculator.md R122). -/
theorem divisor_inRange_iff {clock : Nat} :
    2 ≤ clock / 1000000 ∧ clock / 1000000 ≤ 50 ↔ 2000000 ≤ clock ∧ clock ≤ 50999999 := by
  omega

/-- The four ends of a call, in the order of its tests (40_timing_calculator.md R122, R123, R129). -/
theorem tcalcWith_outcome (policy : Duty) (clock target : Nat) :
    (¬(2000000 ≤ clock ∧ clock ≤ 50999999) ∧ tcalcWith policy clock target = .error .divisorRange) ∨
    ((2000000 ≤ clock ∧ clock ≤ 50999999) ∧ target = 0 ∧ tcalcWith policy clock target = .error .targetZero) ∨
    ((2000000 ≤ clock ∧ clock ≤ 50999999) ∧ 0 < target ∧ target ≤ 100000 ∧
      tcalcWith policy clock target = .ok (tcalcStandard clock target)) ∨
    ((2000000 ≤ clock ∧ clock ≤ 50999999) ∧ 100000 < target ∧
      tcalcWith policy clock target = .ok (tcalcFast policy clock target)) := by
  rw [← divisor_inRange_iff]
  unfold tcalcWith tcalcDivisor Config.mhz Config.divMin Config.divMax Config.stdLimitHz
  split
  · exact .inl ⟨by omega, rfl⟩
  · have hdiv : 2 ≤ clock / 1000000 ∧ clock / 1000000 ≤ 50 := by omega
    split
    · next hzero => exact .inr (.inl ⟨hdiv, hzero, rfl⟩)
    · next hzero =>
      split
      · next hstd => exact .inr (.inr (.inl ⟨hdiv, Nat.pos_of_ne_zero hzero, hstd, rfl⟩))
      · next hfast => exact .inr (.inr (.inr ⟨hdiv, Nat.not_le.mp hfast, rfl⟩))

theorem tcalcWith_eq_divisorRange_iff {policy : Duty} {clock target : Nat} :
    tcalcWith policy clock target = .error .divisorRange ↔ ¬(2000000 ≤ clock ∧ clock ≤ 50999999) := by
  rcases tcalcWith_outcome policy clock target with ⟨hbad, h⟩ | ⟨hclock, -, h⟩ | ⟨hclock, -, -, h⟩ | ⟨hclock, -, h⟩
  · simp only [h, hbad, not_false_eq_true]
  all_goals simp [h, hclock]

theorem tcalcWith_eq_targetZero_iff {policy : Duty} {clock target : Nat} :
    tcalcWith policy clock target = .error .targetZero ↔ (2000000 ≤ clock ∧ clock ≤ 50999999) ∧ target = 0 := by
  rcases tcalcWith_outcome policy clock target with ⟨hbad, h⟩ | ⟨hclock, rfl, h⟩ | ⟨-, hpos, -, h⟩ | ⟨-, hfast, h⟩
  · simp only [h, hbad, false_and, Except.error.injEq, reduceCtorEq]
  · simp only [h, hclock, and_self]
  · simp [h, hpos.ne']
  · simp [h, (Nat.zero_lt_of_lt hfast).ne']

/-- The successful calls: the clock is in range, the target is positive, and its regime says which record it is
(40_timing_calculator.md R124, R129). -/
theorem tcalcWith_eq_ok_iff {policy : Duty} {clock target : Nat} {t : Timings} :
    tcalcWith policy clock target = .ok t ↔ (2000000 ≤ clock ∧ clock ≤ 50999999) ∧ 0 < target ∧
      t = if target ≤ 100000 then tcalcStandard clock target else tcalcFast policy clock target := by
  rcases tcalcWith_outcome policy clock target with
    ⟨hbad, h⟩ | ⟨-, rfl, h⟩ | ⟨hclock, hpos, hstd, h⟩ | ⟨hclock, hfast, h⟩
  · simp only [h, hbad, false_and, reduceCtorEq]
  · simp only [h, lt_irrefl, false_and, and_false, reduceCtorEq]
  · simp [h, hclock, hpos, hstd, eq_comm]
  · simp [h, hclock, Nat.zero_lt_of_lt hfast, Nat.not_le.mpr hfast, eq_comm]

theorem tcalcWith_eq_ok_standard {policy : Duty} {clock target : Nat} {t : Timings}
    (h : tcalcWith policy clock target = .ok t) (hstd : target ≤ 100000) :
    2000000 ≤ clock ∧ clock ≤ 50999999 ∧ 0 < target ∧ t = tcalcStandard clock target := by
  obtain ⟨⟨hlo, hhi⟩, hpos, ht⟩ := tcalcWith_eq_ok_iff.mp h
  exact ⟨hlo, hhi, hpos, by rw [ht, if_pos hstd]⟩

theorem tcalcWith_eq_ok_fast {policy : Duty} {clock target : Nat} {t : Timings}
    (h : tcalcWith policy clock target = .ok t) (hfast : 100000 < target) :
    2000000 ≤ clock ∧ clock ≤ 50999999 ∧ t = tcalcFast policy clock target := by
  obtain ⟨⟨hlo, hhi⟩, -, ht⟩ := tcalcWith_eq_ok_iff.mp h
  exact ⟨hlo, hhi, by rw [ht, if_neg (Nat.not_le.mpr hfast)]⟩

/-! ### The fields of a record -/

/-- The phases of one period of the clock line in Fast mode, by duty (40_timing_calculator.md R127, R128). -/
def fastPhases : Duty → Nat
  | .duty2_1 => 3
  | .duty16_9 => 25

theorem fastPhases_pos (policy : Duty) : 0 < fastPhases policy := by
  cases policy <;> decide

theorem tcalcTrise_of_standard {target : Nat} (hstd : target ≤ 100000) (divisor : Nat) :
    tcalcTrise divisor target = divisor + 1 := if_pos hstd

theorem tcalcTrise_of_fast {target : Nat} (hfast : 100000 < target) (divisor : Nat) :
    tcalcTrise divisor target = divisor * 300 / 1000 + 1 := if_neg (Nat.not_le.mpr hfast)

theorem tcalcStandard_eq {target : Nat} (clock : Nat) (hstd : target ≤ 100000) : tcalcStandard clock target =
    { divisor := clock / 1000000, mode := .standard, duty := .duty2_1, ccr := max 4 (clock / (target * 2)),
      trise := clock / 1000000 + 1 } :=
  congrArg (Timings.mk _ _ _ _) (tcalcTrise_of_standard hstd _)

theorem tcalcFast_eq {target : Nat} (policy : Duty) (clock : Nat) (hfast : 100000 < target) :
    tcalcFast policy clock target =
      { divisor := clock / 1000000, mode := .fast, duty := policy,
        ccr := max 1 (clock / (target * fastPhases policy)), trise := clock / 1000000 * 300 / 1000 + 1 } := by
  have htrise := tcalcTrise_of_fast hfast (tcalcDivisor clock)
  cases policy <;> exact congrArg (Timings.mk _ _ _ _) htrise

/-! ### The quotient behind `ccr` -/

/-- The quotient grows with the clock and shrinks as the target grows. -/
theorem div_target_le_div_target {clock clock' target target' phases : Nat} (hclock : clock ≤ clock')
    (htarget : target' ≤ target) (hpos : 0 < target') (hphases : 0 < phases) :
    clock / (target * phases) ≤ clock' / (target' * phases) :=
  Nat.div_le_div hclock (Nat.mul_le_mul_right phases htarget) (Nat.mul_pos hpos hphases).ne'

/-- The clamp to 1 binds exactly when the quotient is 0. -/
theorem max_one_div_ne_iff {n d : Nat} (hd : 0 < d) : max 1 (n / d) ≠ n / d ↔ n < d := by
  rw [Ne, max_eq_right_iff, Nat.one_le_div_iff hd, not_le]

theorem max_one_div_eq_one {n d : Nat} (hlt : n < d) : max 1 (n / d) = 1 := by
  rw [Nat.div_eq_of_lt hlt]; rfl

/-- In Standard mode the quotient is at least 10, so that the clamp to 4 never binds, and at most 25,499,999. -/
theorem standardQuotient_bounds {clock target : Nat} (hlo : 2000000 ≤ clock) (hhi : clock ≤ 50999999)
    (hpos : 0 < target) (hstd : target ≤ 100000) : 10 ≤ clock / (target * 2) ∧ clock / (target * 2) ≤ 25499999 :=
  ⟨div_target_le_div_target (clock := 2000000) (target := 100000) hlo hstd hpos two_pos,
    div_target_le_div_target (clock' := 50999999) (target' := 1) hhi hpos one_pos two_pos⟩

/-! ### The table of R131 -/

theorem tcalcStandard_bounds {policy : Duty} {clock target : Nat} {t : Timings}
    (h : tcalcWith policy clock target = .ok t) (hstd : target ≤ 100000) :
    2 ≤ t.divisor ∧ t.divisor ≤ 50 ∧ t.mode = .standard ∧ t.duty = .duty2_1 ∧ t.trise = t.divisor + 1 ∧
    10 ≤ t.ccr ∧ t.ccr = clock / (target * 2) ∧ t.ccr ≤ 25499999 := by
  obtain ⟨hlo, hhi, hpos, rfl⟩ := tcalcWith_eq_ok_standard h hstd
  obtain ⟨hdivlo, hdivhi⟩ := divisor_inRange_iff.mpr ⟨hlo, hhi⟩
  obtain ⟨hqlo, hqhi⟩ := standardQuotient_bounds hlo hhi hpos hstd
  have hclamp : max 4 (clock / (target * 2)) = clock / (target * 2) := by omega
  rw [tcalcStandard_eq clock hstd, hclamp]
  exact ⟨hdivlo, hdivhi, rfl, rfl, rfl, hqlo, rfl, hqhi⟩

/-- The scaled rise time of a valid divisor, with the divisors that give its least and its greatest value. -/
theorem fastTrise_bounds {d : Nat} (hd : d ≤ 50) :
    1 ≤ d * 300 / 1000 + 1 ∧ d * 300 / 1000 + 1 ≤ 16 ∧ (d ≤ 3 ↔ d * 300 / 1000 + 1 = 1) ∧
    (d = 50 ↔ d * 300 / 1000 + 1 = 16) := by
  omega

/-- The Fast columns, for both duties; the greatest `ccr` is at the fastest clock and the lowest Fast target. -/
theorem tcalcFast_bounds {policy : Duty} {clock target : Nat} {t : Timings}
    (h : tcalcWith policy clock target = .ok t) (hfast : 100000 < target) :
    (2 ≤ t.divisor ∧ t.divisor ≤ 50 ∧ t.mode = .fast ∧ t.duty = policy) ∧
    (1 ≤ t.trise ∧ t.trise ≤ 16 ∧ (t.divisor ≤ 3 ↔ t.trise = 1) ∧ (t.divisor = 50 ↔ t.trise = 16)) ∧
    1 ≤ t.ccr ∧ t.ccr = max 1 (clock / (target * fastPhases policy)) ∧
    (t.ccr ≠ clock / (target * fastPhases policy) ↔ clock < target * fastPhases policy) ∧
    (clock < target * fastPhases policy → t.ccr = 1) ∧
    t.ccr ≤ max 1 (50999999 / (100001 * fastPhases policy)) := by
  obtain ⟨hlo, hhi, rfl⟩ := tcalcWith_eq_ok_fast h hfast
  obtain ⟨hdivlo, hdivhi⟩ := divisor_inRange_iff.mpr ⟨hlo, hhi⟩
  have hphases := fastPhases_pos policy
  have hd : 0 < target * fastPhases policy := Nat.mul_pos (Nat.zero_lt_of_lt hfast) hphases
  have hq := div_target_le_div_target hhi hfast (Nat.succ_pos 100000) hphases
  rw [tcalcFast_eq policy clock hfast]
  exact ⟨⟨hdivlo, hdivhi, rfl, rfl⟩, fastTrise_bounds hdivhi, le_max_left 1 _, rfl, max_one_div_ne_iff hd,
    max_one_div_eq_one, max_le_max_left 1 hq⟩

/-! ### The order of R132 -/

/-- Inside one regime a larger target has no larger `ccr`. -/
theorem ccr_antitone {policy : Duty} {clock low high : Nat} {a b : Timings}
    (ha : tcalcWith policy clock low = .ok a) (hb : tcalcWith policy clock high = .ok b) (hle : low ≤ high)
    (hregime : low ≤ 100000 ↔ high ≤ 100000) : b.ccr ≤ a.ccr := by
  by_cases hlow : low ≤ 100000
  · have hhigh := hregime.mp hlow
    obtain ⟨-, -, hpos, rfl⟩ := tcalcWith_eq_ok_standard ha hlow
    obtain ⟨-, -, -, rfl⟩ := tcalcWith_eq_ok_standard hb hhigh
    rw [tcalcStandard_eq clock hlow, tcalcStandard_eq clock hhigh]
    exact max_le_max_left 4 (div_target_le_div_target le_rfl hle hpos two_pos)
  · have hhigh := Nat.not_le.mp (mt hregime.mpr hlow)
    have hlow := Nat.not_le.mp hlow
    obtain ⟨-, -, rfl⟩ := tcalcWith_eq_ok_fast ha hlow
    obtain ⟨-, -, rfl⟩ := tcalcWith_eq_ok_fast hb hhigh
    rw [tcalcFast_eq policy clock hlow, tcalcFast_eq policy clock hhigh]
    exact max_le_max_left 1
      (div_target_le_div_target le_rfl hle (Nat.zero_lt_of_lt hlow) (fastPhases_pos policy))

/-- From the last Standard target to the first Fast one the divider grows by half, and `ccr` drops. -/
theorem ccr_drops_at_boundary {clock : Nat} (hlo : 2000000 ≤ clock) :
    max 1 (clock / (100001 * 3)) < max 4 (clock / (100000 * 2)) := by
  omega

/-! ### The obligations -/

/-- Settles O10, from the conditions of the two fatal ends. -/
theorem tcalcFatal : Obligations.TcalcFatal := by
  unfold Obligations.TcalcFatal
  intro clock target
  have hrange : tcalc clock target = .error .divisorRange ↔ ¬(2000000 ≤ clock ∧ clock ≤ 50999999) :=
    tcalcWith_eq_divisorRange_iff
  have hzero : tcalc clock target = .error .targetZero ↔ (2000000 ≤ clock ∧ clock ≤ 50999999) ∧ target = 0 :=
    tcalcWith_eq_targetZero_iff
  refine ⟨?_, hrange, ?_⟩
  · rw [hrange]; omega
  · rw [hzero, ← divisor_inRange_iff, and_assoc]

/-- Settles O11, from the successful calls and the two records written out. -/
theorem tcalcRecord : Obligations.TcalcRecord := by
  unfold Obligations.TcalcRecord
  intro clock target hdivlo hdivhi hpos
  have hclock := divisor_inRange_iff.mp ⟨hdivlo, hdivhi⟩
  constructor
  · intro hstd
    rw [← tcalcStandard_eq clock hstd]
    exact tcalcWith_eq_ok_iff.mpr ⟨hclock, hpos, (if_pos hstd).symm⟩
  · intro hfast
    have hrecord := tcalcFast_eq .duty2_1 clock hfast
    exact hrecord ▸ tcalcWith_eq_ok_iff.mpr ⟨hclock, hpos, (if_neg (Nat.not_le.mpr hfast)).symm⟩

/-- Settles O12: each column is its mode's bounds, at 3 phases for a duty of 2:1 and at 25 for 16:9. -/
theorem tcalcBounds : Obligations.TcalcBounds := by
  unfold Obligations.TcalcBounds
  refine ⟨fun clock target t h hstd => tcalcStandard_bounds h hstd, fun clock target t h hfast => ?_,
    fun clock target t h hfast => ?_, rfl, rfl, rfl, rfl⟩
  · obtain ⟨⟨hdivlo, hdivhi, hmode, hduty⟩, ⟨htlo, hthi, htmin, htmax⟩, hclo, hccr, hclamp, hone, hchi⟩ :=
      tcalcFast_bounds h hfast
    have hmax : t.ccr ≤ 169 := hchi
    exact ⟨hdivlo, hdivhi, hmode, hduty, htlo, hthi, htmin, htmax, hclo, hccr, hclamp, hone, hmax, by omega⟩
  · obtain ⟨⟨hdivlo, hdivhi, hmode, hduty⟩, ⟨htlo, hthi, -, -⟩, hclo, hccr, hclamp, hone, hchi⟩ :=
      tcalcFast_bounds h hfast
    have hmax : t.ccr ≤ 20 := hchi
    exact ⟨hdivlo, hdivhi, hmode, hduty, htlo, hthi, hclo, hccr, hclamp, hone, hmax, by omega⟩

/-- Settles O13: the quotient's order inside one regime, and the two records on either side of the boundary. -/
theorem tcalcMonotone : Obligations.TcalcMonotone := by
  unfold Obligations.TcalcMonotone
  refine ⟨fun clock low high a b ha hb hle hregime => ccr_antitone ha hb hle hregime, fun clock a b ha hb => ?_,
    rfl, rfl⟩
  obtain ⟨hlo, -, -, rfl⟩ := tcalcWith_eq_ok_standard ha le_rfl
  obtain ⟨-, -, rfl⟩ := tcalcWith_eq_ok_fast hb (Nat.lt_succ_self 100000)
  rw [tcalcStandard_eq clock le_rfl, tcalcFast_eq _ clock (Nat.lt_succ_self 100000)]
  exact ⟨ccr_drops_at_boundary hlo, rfl, rfl, rfl, rfl⟩

end Sys2Proof.Machine
end

section
/-! PROOF. The rows of the step table (41_bus_sequencer.md R153). `leadsTo s t` says that the next access of `s`, and
what follows it, lead to `t`; there is one lemma for each row, and `leadsTo_cases` says that a place in order is at one of
them. The statements about single rows, the invariants and the runs of whole commands rest on these lemmas. -/

namespace Sys2Proof.Machine

/-- The next access of the block, executed in `s`, and what follows it lead to `t`. -/
def leadsTo (s t : State) : Prop := ∃ i u, access s = some i ∧ exec i s = .next u ∧ t = advance u

theorem leadsTo_unique {s t t' : State} (h : leadsTo s t) (h' : leadsTo s t') : t = t' := by
  obtain ⟨i, u, ha, hu, rfl⟩ := h
  obtain ⟨i', u', ha', hu', rfl⟩ := h'
  cases ha.symm.trans ha'
  cases hu.symm.trans hu'
  rfl

/-- With nothing to happen outside, a running command takes the step of its row. -/
theorem step_of_leadsTo {s t : State} (hin : s.host.inputs = []) (hr : s.running = true) (hrow : hasRow s = true)
    (h : leadsTo s t) : step s = .next t := by
  obtain ⟨i, u, ha, hu, rfl⟩ := h
  exact step_of_access hin hr hrow ha hu

/-! ### One lemma a row -/

section RowLemmas
variable {s : State}

theorem leadsTo_request_wr (hf : s.fsm = .start) (hg : s.stage = .request) (hp : s.phase = .wr) :
    leadsTo s (goPoll .start (pUpdate .ctrl1 0x0100 0x0100 s)) :=
  ⟨.pSetStart, _, by simp [access, hf, hg, requestOf, hp], exec_pSetStart s, by simp [advance, hf, hg]⟩

theorem leadsTo_request_rd (hf : s.fsm = .start) (hg : s.stage = .request) (hp : s.phase = .rd) :
    leadsTo s (goPoll .start (pUpdate .ctrl1 0x0500 0x0500 s)) :=
  ⟨.pSetStartAck, _, by simp [access, hf, hg, requestOf, hp], exec_pSetStartAck s, by simp [advance, hf, hg]⟩

/-- The accesses of a monitor call (42_error_flag_monitor.md R181). -/
theorem access_call (hf : s.fsm.polls = true) :
    (s.stage = .monitor → access s = some .pRdStat1) ∧
    (∀ f, s.stage = .clearErr f → access s = some (clearOf f)) ∧
    ∀ e, s.stage = .clearBerr e → access s = some .pClrBerr := by
  unfold access
  split
  · exact absurd ‹_› (ne_cfg_of_polls hf _)
  · exact ⟨fun hg => by simp [hg, whilePolling, hf], fun f hg => by simp [hg, whilePolling, hf],
      fun e hg => by simp [hg, whilePolling, hf]⟩

/-- What follows each of them. -/
theorem advance_call (hf : s.fsm.polls = true) :
    (s.stage = .monitor → advance s = afterStatusRead s) ∧
    (∀ f, s.stage = .clearErr f → advance s = afterClearErr f s) ∧
    ∀ e, s.stage = .clearBerr e → advance s = afterClearBerr e s := by
  unfold advance
  split
  · exact absurd ‹_› (ne_cfg_of_polls hf _)
  · exact ⟨fun hg => by simp [hg], fun f hg => by simp [hg], fun e hg => by simp [hg]⟩

theorem leadsTo_monitor (hf : s.fsm.polls = true) (hg : s.stage = .monitor) :
    leadsTo s (afterStatusRead (pRead .stat1 s)) :=
  ⟨.pRdStat1, _, (access_call hf).1 hg, exec_pRdStat1 s, ((advance_call (s := pRead .stat1 s) hf).1 hg).symm⟩

theorem leadsTo_clearErr {f : ErrFlag} (hf : s.fsm.polls = true) (hg : s.stage = .clearErr f) :
    leadsTo s (afterClearErr f (pClear (errBit f) s)) :=
  ⟨clearOf f, _, (access_call hf).2.1 f hg, exec_clearOf f s,
    ((advance_call (s := pClear (errBit f) s) hf).2.1 f hg).symm⟩

theorem leadsTo_clearBerr {e : Option ErrFlag} (hf : s.fsm.polls = true) (hg : s.stage = .clearBerr e) :
    leadsTo s (afterClearBerr e (pClear Bit.berr s)) :=
  ⟨.pClrBerr, _, (access_call hf).2.2 e hg, exec_pClrBerr s,
    ((advance_call (s := pClear Bit.berr s) hf).2.2 e hg).symm⟩

theorem leadsTo_second_master (hf : s.fsm = .master) (hg : s.stage = .second) :
    leadsTo s (afterSecond (pRead .stat2 s)) :=
  ⟨.pRdStat2, _, by simp [access, hf, hg, secondOf], rfl, by simp [advance, hf, hg]⟩

theorem leadsTo_second_stop (hf : s.fsm = .stop) (hg : s.stage = .second) :
    leadsTo s (afterSecond (pRead .ctrl1 s)) :=
  ⟨.pRdCtrl1, _, by simp [access, hf, hg, secondOf], rfl, by simp [advance, hf, hg]⟩

theorem leadsTo_leave_master (hf : s.fsm = .master) (hg : s.stage = .leave) :
    leadsTo s (goPoll .addr (pWrite (dataWord (addrByte s.addr7 (phaseDir s.phase))) s)) :=
  ⟨.pWrData (addrByte s.addr7 (phaseDir s.phase)), _, by simp [access, hf, hg, leaveOf], rfl,
    by simp [advance, hf, hg, afterLeave]⟩

theorem leadsTo_leave_addrclr (hf : s.fsm = .addrclr) (hg : s.stage = .leave) :
    leadsTo s (afterLatchClear (pRead .stat2 s)) :=
  ⟨.pRdStat2, _, by simp [access, hf, hg, leaveOf], rfl, by simp [advance, hf, hg, afterLeave]⟩

theorem leadsTo_leave_txe (hf : s.fsm = .txe) (hg : s.stage = .leave) :
    leadsTo s (goPoll .btf (pWrite (dataWord (s.host.txbuf.read s.idx)) s)) :=
  ⟨.pWrData (s.host.txbuf.read s.idx), _, by simp [access, hf, hg, leaveOf], rfl,
    by simp [advance, hf, hg, afterLeave]⟩

theorem leadsTo_leave_btf (hf : s.fsm = .btf) (hg : s.stage = .leave) :
    leadsTo s (goPoll .stop (pUpdate .ctrl1 0x0200 0x0200 s)) :=
  ⟨.pSetStop, _, by simp [access, hf, hg, leaveOf], exec_pSetStop s, by simp [advance, hf, hg, afterLeave]⟩

theorem leadsTo_leave_rxne (hf : s.fsm = .rxne) (hg : s.stage = .leave) :
    leadsTo s (afterDrain (pRead .data s)) :=
  ⟨.pRdData, _, by simp [access, hf, hg, leaveOf], rfl, by simp [advance, hf, hg, afterLeave]⟩

theorem leadsTo_leaveCtrl_addrclr_wr (hf : s.fsm = .addrclr) (hg : s.stage = .leaveCtrl) (hp : s.phase = .wr) :
    leadsTo s (goPoll .stop (pUpdate .ctrl1 0x0200 0x0200 s)) :=
  ⟨.pSetStop, _, by simp [access, hf, hg, leaveCtrlOf, hp], exec_pSetStop s,
    by simp [advance, hf, hg, afterLeaveCtrl, hp]⟩

theorem leadsTo_leaveCtrl_addrclr_rd (hf : s.fsm = .addrclr) (hg : s.stage = .leaveCtrl) (hp : s.phase = .rd) :
    leadsTo s (goPoll .rxne { pUpdate .ctrl1 0x0600 0x0200 s with idx := 0 }) :=
  ⟨.pNackStop, _, by simp [access, hf, hg, leaveCtrlOf, hp], exec_pNackStop s,
    by simp [advance, hf, hg, afterLeaveCtrl, hp]⟩

theorem leadsTo_leaveCtrl_rxne (hf : s.fsm = .rxne) (hg : s.stage = .leaveCtrl) :
    leadsTo s (goPoll .rxne { pUpdate .ctrl1 0x0600 0x0200 s with idx := s.idx + 1 }) :=
  ⟨.pNackStop, _, by simp [access, hf, hg, leaveCtrlOf], exec_pNackStop s,
    by simp [advance, hf, hg, afterLeaveCtrl]⟩

end RowLemmas

/-! ### What follows a monitor call that returned `Ok`, by state -/

section AfterMonitor
variable {s : State}

theorem afterMonitor_start (hf : s.fsm = .start) : afterMonitor s = pollFlag Bit.sb (goPoll .master) s := by
  simp only [afterMonitor, hf]

theorem afterMonitor_addr (hf : s.fsm = .addr) :
    afterMonitor s = pollFlag Bit.addr (fun t => { t with fsm := .addrclr, stage := .leave }) s := by
  simp only [afterMonitor, hf]

theorem afterMonitor_txe (hf : s.fsm = .txe) : afterMonitor s = pollFlag Bit.txe (goStage .leave) s := by
  simp only [afterMonitor, hf]

theorem afterMonitor_btf (hf : s.fsm = .btf) : afterMonitor s = pollFlag Bit.btf afterBtf s := by
  simp only [afterMonitor, hf]

theorem afterMonitor_rxne (hf : s.fsm = .rxne) : afterMonitor s = pollFlag Bit.rxne (goStage .leave) s := by
  simp only [afterMonitor, hf]

theorem afterMonitor_second (hf : s.fsm = .master ∨ s.fsm = .stop) : afterMonitor s = goStage .second s := by
  rcases hf with hf | hf <;> simp only [afterMonitor, hf]

end AfterMonitor

/-! ### Every place is at a row -/

/-- A transfer command is running (10_state.md R21, R22). -/
def transferring (s : State) : Prop := s.running = true ∧ ∀ k, s.fsm ≠ .cfg k

theorem transferring_of_polls {s : State} (hf : s.fsm.polls = true) : transferring s :=
  ⟨running_of_polls hf, ne_cfg_of_polls hf⟩

/-- A place in order of a transfer command is at one of the rows: what holds after each of them holds after the next
access. -/
theorem leadsTo_cases {P : State → Prop} {s t : State} (h : seqOk s = true) (ht : transferring s) (hl : leadsTo s t)
    (request_wr : s.fsm = .start → s.stage = .request → s.phase = .wr →
      P (goPoll .start (pUpdate .ctrl1 0x0100 0x0100 s)))
    (request_rd : s.fsm = .start → s.stage = .request → s.phase = .rd →
      P (goPoll .start (pUpdate .ctrl1 0x0500 0x0500 s)))
    (monitor : s.fsm.polls = true → s.stage = .monitor → P (afterStatusRead (pRead .stat1 s)))
    (clearErr : ∀ f, s.fsm.polls = true → s.stage = .clearErr f → P (afterClearErr f (pClear (errBit f) s)))
    (clearBerr : ∀ e, s.fsm.polls = true → s.stage = .clearBerr e → firstError s.rdata = e →
      P (afterClearBerr e (pClear Bit.berr s)))
    (second_master : s.fsm = .master → s.stage = .second → P (afterSecond (pRead .stat2 s)))
    (second_stop : s.fsm = .stop → s.stage = .second → P (afterSecond (pRead .ctrl1 s)))
    (leave_master : s.fsm = .master → s.stage = .leave →
      P (goPoll .addr (pWrite (dataWord (addrByte s.addr7 (phaseDir s.phase))) s)))
    (leave_addrclr : s.fsm = .addrclr → s.stage = .leave → P (afterLatchClear (pRead .stat2 s)))
    (leave_txe : s.fsm = .txe → s.stage = .leave →
      P (goPoll .btf (pWrite (dataWord (s.host.txbuf.read s.idx)) s)))
    (leave_btf : s.fsm = .btf → s.stage = .leave → s.op = .write → s.idx + 1 = s.wlen →
      P (goPoll .stop (pUpdate .ctrl1 0x0200 0x0200 s)))
    (leave_rxne : s.fsm = .rxne → s.stage = .leave → P (afterDrain (pRead .data s)))
    (leaveCtrl_wr : s.fsm = .addrclr → s.stage = .leaveCtrl → s.phase = .wr → s.op = .write → s.wlen = 0 →
      P (goPoll .stop (pUpdate .ctrl1 0x0200 0x0200 s)))
    (leaveCtrl_rd : s.fsm = .addrclr → s.stage = .leaveCtrl → s.phase = .rd → s.rlen = 1 →
      P (goPoll .rxne { pUpdate .ctrl1 0x0600 0x0200 s with idx := 0 }))
    (leaveCtrl_rxne : s.fsm = .rxne → s.stage = .leaveCtrl → s.idx + 2 = s.rlen →
      P (goPoll .rxne { pUpdate .ctrl1 0x0600 0x0200 s with idx := s.idx + 1 })) : P t := by
  have row : ∀ t', leadsTo s t' → P t' → P t := fun t' ht' hp => leadsTo_unique ht' hl ▸ hp
  obtain ⟨-, he | ⟨hf, hm⟩⟩ := (seqOk_iff ht.1 ht.2).1 h
  · unfold exitStage at he
    cases hf : s.fsm with
    | idle | halt | cfg | addr => simp [hf] at he
    | start =>
      simp only [hf] at he
      cases hp : s.phase with
      | wr => exact row _ (leadsTo_request_wr hf he hp) (request_wr hf he hp)
      | rd => exact row _ (leadsTo_request_rd hf he hp) (request_rd hf he hp)
    | master =>
      simp only [hf] at he
      rcases he with hg | hg
      · exact row _ (leadsTo_second_master hf hg) (second_master hf hg)
      · exact row _ (leadsTo_leave_master hf hg) (leave_master hf hg)
    | addrclr =>
      simp only [hf] at he
      rcases he with hg | ⟨hg, ⟨hp, ho, hw⟩ | ⟨hp, hn⟩⟩
      · exact row _ (leadsTo_leave_addrclr hf hg) (leave_addrclr hf hg)
      · exact row _ (leadsTo_leaveCtrl_addrclr_wr hf hg hp) (leaveCtrl_wr hf hg hp ho hw)
      · exact row _ (leadsTo_leaveCtrl_addrclr_rd hf hg hp) (leaveCtrl_rd hf hg hp hn)
    | txe =>
      simp only [hf] at he
      exact row _ (leadsTo_leave_txe hf he) (leave_txe hf he)
    | btf =>
      simp only [hf] at he
      obtain ⟨hg, ho, hw⟩ := he
      exact row _ (leadsTo_leave_btf hf hg) (leave_btf hf hg ho hw)
    | rxne =>
      simp only [hf] at he
      rcases he with hg | ⟨hg, hn⟩
      · exact row _ (leadsTo_leave_rxne hf hg) (leave_rxne hf hg)
      · exact row _ (leadsTo_leaveCtrl_rxne hf hg) (leaveCtrl_rxne hf hg hn)
    | stop =>
      simp only [hf] at he
      exact row _ (leadsTo_second_stop hf he) (second_stop hf he)
  · cases hg : s.stage with
    | monitor => exact row _ (leadsTo_monitor hf hg) (monitor hf hg)
    | clearErr f => exact row _ (leadsTo_clearErr hf hg) (clearErr f hf hg)
    | clearBerr e =>
      have he : firstError s.rdata = e := by simp_all [monitorStage]
      exact row _ (leadsTo_clearBerr hf hg) (clearBerr e hf hg he)
    | request | second | leave | leaveCtrl => simp [hg, monitorStage] at hm

/-- The access case of an invariant: a place in order stays in order, and what holds after every row and after every
configuration step holds after the access. -/
theorem access_preserves {X : State → Prop} {s u : State} {i : Instr} (hq : seqOk s = true) (hr : s.running = true)
    (ha : access s = some i) (hu : exec i s = .next u) (transfer : transferring s → ∀ t, leadsTo s t → X t)
    (cfg : ∀ k v, seqOk v = true → v.fsm = .cfg k → X (afterCfg k v)) : seqOk (advance u) = true ∧ X (advance u) := by
  obtain ⟨hq', hr'⟩ := seqOk_exec_access hq hr ha hu
  refine ⟨seqOk_advance hq' hr', ?_⟩
  by_cases hc : ∀ k, s.fsm ≠ .cfg k
  · exact transfer ⟨hr, hc⟩ _ ⟨i, u, ha, hu, rfl⟩
  · obtain ⟨k, hk⟩ := not_forall_not.mp hc
    have hk' : u.fsm = .cfg k := by rw [exec_port_frame (access_isPort ha) hu]; exact hk
    rw [advance_of_cfg hk']
    exact cfg k u hq' hk'

end Sys2Proof.Machine
end

section
/-! PROOF. The counts of a transfer command (41_bus_sequencer.md R156 items 5 to 7). An access counts where it is a
write to `DATA`, a read of `DATA` or a STOP request (`countsAre_exec`); each function that follows an access keeps
`countsOk`, as the place it leads to calls for exactly what was counted. -/

namespace Sys2Proof.Machine

/-! ### Counting accesses -/

/-- An event whose record is the encoding of `i` is an access `i`. -/
theorem isAccess_of_encode {i : Instr} {r : Record} (h : encode i = .record r) (p : Instr → Bool) (v : Option Word) :
    isAccess p (.port r v) = p i := by
  simp only [isAccess, decodeRecord_encode h]

/-- A micro-operation leaves one access in the trace: itself. -/
theorem trace_exec {i : Instr} {s u : State} (hi : i.isPort = true) (hu : exec i s = .next u) :
    ∃ e, u.trace = e :: s.trace ∧ ∀ p, isAccess p e = p i := by
  obtain ⟨r, hr⟩ := encode_of_isPort hi
  obtain ⟨t, v, ht, htrace⟩ := exec_record i r hr s
  cases hu.symm.trans ht
  exact ⟨_, htrace, fun p => isAccess_of_encode hr p v⟩

theorem countAccess_exec {i : Instr} {s u : State} (hi : i.isPort = true) (hu : exec i s = .next u)
    (p : Instr → Bool) : countAccess p u = countAccess p s + (p i).toNat := by
  obtain ⟨e, htrace, he⟩ := trace_exec hi hu
  simp only [countAccess, accessesIn, htrace, List.countP_cons, he]
  cases p i <;> rfl

theorem countsAre_iff {w d p : Nat} {s : State} :
    countsAre w d p s = true ↔
      countAccess isDataWrite s = w ∧ countAccess isDataRead s = d ∧ countAccess isStopRequest s = p := by
  simp [countsAre, and_assoc]

/-- The three counts after an access. -/
theorem countsAre_exec {i : Instr} {s u : State} {w d p : Nat} (hi : i.isPort = true) (hu : exec i s = .next u)
    (h : countsAre w d p s = true) :
    countsAre (w + (isDataWrite i).toNat) (d + (isDataRead i).toNat) (p + (isStopRequest i).toNat) u = true := by
  obtain ⟨rfl, rfl, rfl⟩ := countsAre_iff.1 h
  exact countsAre_iff.2 ⟨countAccess_exec hi hu _, countAccess_exec hi hu _, countAccess_exec hi hu _⟩

/-- The counts of a trace that holds nothing yet. -/
theorem countsAre_of_trace_nil {s : State} (h : s.trace = []) : countsAre 0 0 0 s = true := by
  simp [countsAre, countAccess, accessesIn, h]

/-! ### What a place calls for -/

theorem countsOk_iff {s : State} (h : transferring s) :
    countsOk s = true ↔ countsAre (writesDue s) (drainsDue s) (stopsDue s) s = true := by
  obtain ⟨hr, hc⟩ := h
  unfold State.running at hr
  unfold countsOk
  split <;> simp_all

/-- The counts are in order where they are those the place calls for. -/
theorem countsOk_of_due {w d p : Nat} {s : State} (ht : transferring s) (h : countsAre w d p s = true)
    (hw : writesDue s = w) (hd : drainsDue s = d) (hp : stopsDue s = p) : countsOk s = true := by
  subst hw hd hp
  exact (countsOk_iff ht).2 h

theorem countsOk_goPoll {f : Fsm} {w d p : Nat} {s : State} (hf : f.polls = true) (h : countsAre w d p s = true)
    (hw : writesDue (goPoll f s) = w) (hd : drainsDue (goPoll f s) = d) (hp : stopsDue (goPoll f s) = p) :
    countsOk (goPoll f s) = true :=
  countsOk_of_due (transferring_of_polls (s := goPoll f s) hf) h hw hd hp

/-- Up to the master poll of the read phase nothing but the write phase has written (41_bus_sequencer.md R144). -/
theorem writesDue_rd_open {s : State} (hp : s.phase = .rd) (hf : s.fsm = .start ∨ s.fsm = .master) :
    writesDue s = writePhaseWrites s := by
  rcases hf with hf | hf <;> simp only [writesDue, hp, hf]

/-- After it the address byte of the read phase has been written. -/
theorem writesDue_rd_sent {s : State} (hp : s.phase = .rd) (hs : s.fsm ≠ .start) (hm : s.fsm ≠ .master) :
    writesDue s = writePhaseWrites s + 1 := by
  unfold writesDue
  rw [hp]
  cases hf : s.fsm with
  | start => exact absurd hf hs
  | master => exact absurd hf hm
  | _ => rfl

theorem drainsDue_rxne {s : State} (hf : s.fsm = .rxne) (hg : s.stage ≠ .leaveCtrl) : drainsDue s = s.idx := by
  simp [drainsDue, hf, hg]

theorem drainsDue_stop_rd {s : State} (hf : s.fsm = .stop) (hp : s.phase = .rd) : drainsDue s = s.rlen := by
  simp [drainsDue, hf, hp]

/-- The STOP request of a read phase is due where the last byte is awaited (41_bus_sequencer.md R148). -/
theorem stopsDue_rxne {s : State} (hf : s.fsm = .rxne) : stopsDue s = if s.idx + 1 = s.rlen then 1 else 0 := by
  simp only [stopsDue, hf]

/-- A sub-step makes no difference to what is called for, but for the `r9` after a drain. -/
theorem drainsDue_goStage {g : Stage} {s : State} (hs : s.stage ≠ .leaveCtrl) (hg : g ≠ .leaveCtrl) :
    drainsDue (goStage g s) = drainsDue s := by
  cases hf : s.fsm with
  | rxne => rw [drainsDue_rxne hf hs, drainsDue_rxne (s := goStage g s) hf hg]; rfl
  | _ => simp only [drainsDue, goStage, hf]

/-- The place at which byte `n` of a read phase is awaited. -/
theorem countsOk_goPoll_rxne {n : Nat} {s : State} (hp : s.phase = .rd)
    (h : countsAre (writePhaseWrites s + 1) n (if n + 1 = s.rlen then 1 else 0) s = true) :
    countsOk (goPoll .rxne { s with idx := n }) = true :=
  countsOk_goPoll rfl h (writesDue_rd_sent (by exact hp) (by simp) (by simp)) (drainsDue_rxne rfl (by simp))
    (stopsDue_rxne rfl)

theorem countsOk_goStage {g : Stage} {s : State} (ht : transferring s) (hs : s.stage ≠ .leaveCtrl)
    (hg : g ≠ .leaveCtrl) (h : countsOk s = true) : countsOk (goStage g s) = true :=
  countsOk_of_due (s := goStage g s) ht ((countsOk_iff ht).1 h) rfl (drainsDue_goStage hs hg) rfl

/-- An access that none of the three counts keeps them. -/
theorem countsOk_exec {i : Instr} {s u : State} (hi : i.isPort = true) (hu : exec i s = .next u)
    (hw : isDataWrite i = false) (hd : isDataRead i = false) (hp : isStopRequest i = false) (ht : transferring s)
    (h : countsOk s = true) : countsOk u = true := by
  have hcounts := countsAre_exec hi hu ((countsOk_iff ht).1 h)
  rw [hw, hd, hp] at hcounts
  have hframe := exec_port_frame hi hu
  exact countsOk_of_due (by rw [hframe]; exact ht) hcounts (by rw [hframe]; rfl) (by rw [hframe]; rfl)
    (by rw [hframe]; rfl)

/-! ### What follows an access -/

/-- The read phase begins with the writes of the write phase made, and nothing else. -/
theorem countsOk_enterRead {s : State} (h : countsAre (writePhaseWrites s) 0 0 s = true) :
    countsOk (enterRead s) = true := by
  unfold enterRead
  split
  · rfl
  · exact countsOk_of_due (s := startPhase .rd s) ⟨rfl, by simp⟩ h rfl rfl rfl

/-- The end of the write phase: the address byte and the payload were written. -/
theorem countsOk_afterPayload {g : Stage} {s : State} (hsame : countsOk s = true)
    (hw : s.op = .write → countsOk (goStage g s) = true) (h : countsAre (1 + s.wlen) 0 0 s = true) :
    countsOk (afterPayload g s) = true := by
  unfold afterPayload
  cases ho : s.op with
  | write => exact hw ho
  | wrrd => exact countsOk_enterRead (by simpa [writePhaseWrites, ho, Op.writes] using h)
  | _ => exact hsame

theorem countsOk_afterBtf {s : State} (hs : s.fsm = .btf) (hg : s.stage ≠ .leaveCtrl) (hp : placeOk s)
    (h : countsOk s = true) : countsOk (afterBtf s) = true := by
  simp only [placeOk, hs] at hp
  obtain ⟨-, hwr, hidx⟩ := hp
  have ht : transferring s := transferring_of_polls (by rw [hs]; rfl)
  have hcounts := (countsOk_iff ht).1 h
  simp only [writesDue, drainsDue, stopsDue, hs, hwr] at hcounts
  unfold afterBtf
  split
  · refine countsOk_goPoll rfl hcounts ?_ rfl rfl
    simp only [writesDue, goPoll, hwr]
    omega
  · refine countsOk_afterPayload h (fun _ => countsOk_goStage ht hg (by simp) h) ?_
    have hlast : 1 + s.wlen = 2 + s.idx := by omega
    rwa [hlast]

theorem countsOk_pollFlag {n : Nat} {go : State → State} {s : State} (ht : transferring s)
    (hg : s.stage ≠ .leaveCtrl) (h : countsOk s = true) (hgo : countsOk (go (storeSnap s)) = true) :
    countsOk (pollFlag n go s) = true := by
  unfold pollFlag
  split
  · exact hgo
  · exact countsOk_goStage (s := storeSnap s) ht hg (by simp) h

theorem countsOk_afterMonitor {s : State} (hp : placeOk s) (hf : s.fsm.polls = true) (hg : s.stage ≠ .leaveCtrl)
    (h : countsOk s = true) : countsOk (afterMonitor s) = true := by
  have ht := transferring_of_polls hf
  have hcounts := (countsOk_iff ht).1 h
  have hleave : countsOk (goStage .leave (storeSnap s)) = true :=
    countsOk_goStage (s := storeSnap s) ht hg (by simp) h
  have hsecond : countsOk (goStage .second s) = true := countsOk_goStage ht hg (by simp) h
  unfold afterMonitor
  cases hs : s.fsm with
  | start =>
    refine countsOk_pollFlag ht hg h (countsOk_goPoll rfl hcounts ?_ ?_ ?_)
    · cases hphase : s.phase with
      | wr => simp [writesDue, hs, hphase]
      | rd => exact (writesDue_rd_open (by exact hphase) (.inr rfl)).trans (writesDue_rd_open hphase (.inl hs)).symm
    · simp [drainsDue, hs]
    · simp [stopsDue, hs]
  | master => exact hsecond
  | addr =>
    refine countsOk_pollFlag ht hg h (countsOk_of_due ⟨rfl, by simp⟩ hcounts ?_ ?_ ?_)
    · cases hphase : s.phase with
      | wr => simp [writesDue, hs, hphase]
      | rd =>
        rw [writesDue_rd_sent hphase (by simp [hs]) (by simp [hs])]
        exact writesDue_rd_sent (by exact hphase) (by simp) (by simp)
    · simp only [drainsDue, hs]
    · simp only [stopsDue, hs]
  | txe => exact countsOk_pollFlag ht hg h hleave
  | btf => exact countsOk_pollFlag ht hg h (countsOk_afterBtf (s := storeSnap s) hs hg hp h)
  | rxne => exact countsOk_pollFlag ht hg h hleave
  | stop => exact hsecond
  | _ => exact h

theorem countsOk_complete_errResult (f : ErrFlag) (s : State) : countsOk (complete (errResult f) s) = true := by
  cases f <;> rfl

theorem countsOk_afterStatusRead {s : State} (hp : placeOk s) (hf : s.fsm.polls = true) (hg : s.stage ≠ .leaveCtrl)
    (h : countsOk s = true) : countsOk (afterStatusRead s) = true := by
  have ht := transferring_of_polls hf
  unfold afterStatusRead
  split
  · exact countsOk_goStage ht hg (by simp) h
  · split
    · exact countsOk_goStage ht hg (by simp) h
    · exact countsOk_afterMonitor hp hf hg h

theorem countsOk_afterClearErr {f : ErrFlag} {s : State} (hf : s.fsm.polls = true) (hg : s.stage ≠ .leaveCtrl)
    (h : countsOk s = true) : countsOk (afterClearErr f s) = true := by
  unfold afterClearErr
  split
  · exact countsOk_goStage (transferring_of_polls hf) hg (by simp) h
  · exact countsOk_complete_errResult f s

theorem countsOk_afterClearBerr {e : Option ErrFlag} {s : State} (hp : placeOk s) (hf : s.fsm.polls = true)
    (hg : s.stage ≠ .leaveCtrl) (h : countsOk s = true) : countsOk (afterClearBerr e s) = true := by
  cases e with
  | some f => exact countsOk_complete_errResult f s
  | none => exact countsOk_afterMonitor hp hf hg h

/-- The counts at an `Ok` end are those of the command's lengths. -/
theorem countsOk_complete_ok {s : State} (hs : s.fsm = .stop) (hp : placeOk s) (h : countsOk s = true) :
    countsOk (complete .ok s) = true := by
  have hcounts := (countsOk_iff (transferring_of_polls (by rw [hs]; rfl))).1 h
  simp only [placeOk, hs, phaseOk] at hp
  obtain ⟨hphase, hend⟩ := hp
  simp only [writesDue, drainsDue, stopsDue, hs] at hcounts
  cases hx : s.phase with
  | wr =>
    have ho : s.op = .write := by simpa [hx] using hend
    rw [hx] at hcounts
    simp only [countsOk, complete_fsm, complete_result, complete_op, ho]
    exact hcounts
  | rd =>
    simp only [hx, Bool.and_eq_true] at hphase hcounts
    simp only [countsOk, complete_fsm, complete_result, complete_op]
    cases ho : s.op with
    | read =>
      simp only [writePhaseWrites, ho, Op.writes] at hcounts
      exact hcounts
    | wrrd =>
      have hsum : 1 + s.wlen + 1 = 2 + s.wlen := by omega
      simp only [writePhaseWrites, ho, Op.writes, if_true, hsum] at hcounts
      exact hcounts
    | _ => simp [ho, Op.reads] at hphase

theorem countsOk_afterSecond {s : State} (hg : s.stage = .second) (hp : placeOk s) (hf : s.fsm.polls = true)
    (h : countsOk s = true) : countsOk (afterSecond s) = true := by
  have hstage : ∀ g, g ≠ .leaveCtrl → countsOk (goStage g s) = true :=
    fun g hne => countsOk_goStage (transferring_of_polls hf) (by simp [hg]) hne h
  unfold afterSecond
  split
  · split <;> exact hstage _ (by simp)
  · split
    · exact hstage _ (by simp)
    · exact countsOk_complete_ok ‹_› hp h
  · exact h

/-- Row `S_ADDRCLR`: in either phase one address byte more than before the phase was written. -/
theorem countsOk_afterLatchClear {s : State} (hs : s.fsm = .addrclr) (h : countsOk s = true) :
    countsOk (afterLatchClear s) = true := by
  have ht : transferring s := by simp [transferring, State.running, hs]
  have hcounts := (countsOk_iff ht).1 h
  have hctrl : countsOk (goStage .leaveCtrl s) = true :=
    countsOk_of_due (s := goStage .leaveCtrl s) ht hcounts rfl (by simp [drainsDue, hs]) rfl
  simp only [writesDue, drainsDue, stopsDue, hs] at hcounts
  unfold afterLatchClear
  split
  · next hwr =>
    simp only [hwr] at hcounts
    split
    · exact countsOk_goPoll rfl hcounts (by simp [writesDue, goPoll, hwr]) rfl rfl
    · next hzero =>
      refine countsOk_afterPayload h (fun _ => hctrl) ?_
      rwa [Nat.eq_zero_of_not_pos hzero]
  · next hrd =>
    simp only [hrd] at hcounts
    split
    · next htwo =>
      have hmore : 0 + 1 ≠ s.rlen := by omega
      exact countsOk_goPoll_rxne hrd (by rwa [if_neg hmore])
    · exact hctrl

/-- Row `S_RXNE(i)`, `s` being the state after the read of `DATA`. -/
theorem countsOk_afterDrain {s : State} (hs : s.fsm = .rxne) (hp : s.phase = .rd)
    (h : countsAre (writePhaseWrites s + 1) (s.idx + 1) (if s.idx + 1 = s.rlen then 1 else 0) s = true) :
    countsOk (afterDrain s) = true := by
  unfold afterDrain
  split
  · next hlast =>
    rw [if_pos hlast, hlast] at h
    exact countsOk_goPoll rfl h (writesDue_rd_sent hp (by simp) (by simp)) (drainsDue_stop_rd rfl hp) rfl
  · next hmore =>
    rw [if_neg hmore] at h
    split
    · exact countsOk_of_due (s := goStage .leaveCtrl (storeReceived s)) (by simp [transferring, State.running, hs]) h
        (writesDue_rd_sent hp (by simp [hs]) (by simp [hs])) (by simp [drainsDue, hs])
        ((stopsDue_rxne hs).trans (if_neg hmore))
    · next hnot =>
      exact countsOk_goPoll_rxne (s := storeReceived s) hp (by rw [if_neg (by exact hnot)]; exact h)

/-! ### The next access and what follows it -/

/-- The next access of a transfer command and what follows it keep the counts. -/
theorem countsOk_of_leadsTo {s t : State} (hq : seqOk s = true) (ht : transferring s) (h : countsOk s = true)
    (hl : leadsTo s t) : countsOk t = true := by
  have hplace : placeOk s := ((seqOk_iff ht.1 ht.2).1 hq).1
  have hcounts := (countsOk_iff ht).1 h
  refine leadsTo_cases (P := fun t => countsOk t = true) hq ht hl
    (request_wr := fun hf hg hp => ?request_wr)
    (request_rd := fun hf hg hp => ?request_rd)
    (monitor := fun hf hg => ?monitor)
    (clearErr := fun f hf hg => ?clearErr)
    (clearBerr := fun e hf hg _ => ?clearBerr)
    (second_master := fun hf hg => ?second_master)
    (second_stop := fun hf hg => ?second_stop)
    (leave_master := fun hf hg => ?leave_master)
    (leave_addrclr := fun hf hg => ?leave_addrclr)
    (leave_txe := fun hf hg => ?leave_txe)
    (leave_btf := fun hf hg ho hi => ?leave_btf)
    (leave_rxne := fun hf hg => ?leave_rxne)
    (leaveCtrl_wr := fun hf hg hp ho hw => ?leaveCtrl_wr)
    (leaveCtrl_rd := fun hf hg hp hn => ?leaveCtrl_rd)
    (leaveCtrl_rxne := fun hf hg hn => ?leaveCtrl_rxne)
  case request_wr =>
    simp only [writesDue, drainsDue, stopsDue, hf, hp] at hcounts
    refine countsOk_goPoll rfl (countsAre_exec rfl (exec_pSetStart s) hcounts) ?_ rfl rfl
    simp only [writesDue, goPoll, pUpdate, hp]; rfl
  case request_rd =>
    rw [writesDue_rd_open hp (.inl hf)] at hcounts
    simp only [drainsDue, stopsDue, hf] at hcounts
    exact countsOk_goPoll rfl (countsAre_exec rfl (exec_pSetStartAck s) hcounts)
      (writesDue_rd_open hp (.inl rfl)) rfl rfl
  case monitor =>
    exact countsOk_afterStatusRead (s := pRead .stat1 s) hplace hf (by simp [hg])
      (countsOk_exec rfl (exec_pRdStat1 s) rfl rfl rfl ht h)
  case clearErr =>
    refine countsOk_afterClearErr (s := pClear (errBit f) s) hf (by simp [hg]) ?_
    refine countsOk_exec (i := clearOf f) ?_ (exec_clearOf f s) ?_ ?_ ?_ ht h <;> cases f <;> rfl
  case clearBerr =>
    exact countsOk_afterClearBerr (s := pClear Bit.berr s) hplace hf (by simp [hg])
      (countsOk_exec rfl (exec_pClrBerr s) rfl rfl rfl ht h)
  case second_master =>
    exact countsOk_afterSecond (s := pRead .stat2 s) hg hplace (by simp [hf, Fsm.polls])
      (countsOk_exec rfl (exec_pRdStat2 s) rfl rfl rfl ht h)
  case second_stop =>
    exact countsOk_afterSecond (s := pRead .ctrl1 s) hg hplace (by simp [hf, Fsm.polls])
      (countsOk_exec rfl (exec_pRdCtrl1 s) rfl rfl rfl ht h)
  case leave_master =>
    simp only [drainsDue, stopsDue, hf] at hcounts
    refine countsOk_goPoll rfl (countsAre_exec rfl (exec_pWrData s _) hcounts) ?_ rfl rfl
    cases hp : s.phase with
    | wr => simp only [writesDue, goPoll, pWrite, hp, hf]; rfl
    | rd =>
      rw [writesDue_rd_open hp (.inr hf)]
      exact writesDue_rd_sent hp (by simp) (by simp)
  case leave_addrclr =>
    exact countsOk_afterLatchClear (s := pRead .stat2 s) hf
      (countsOk_exec rfl (exec_pRdStat2 s) rfl rfl rfl ht h)
  case leave_txe =>
    simp only [placeOk, hf] at hplace
    obtain ⟨-, hwr, -⟩ := hplace
    simp only [writesDue, drainsDue, stopsDue, hf, hwr] at hcounts
    refine countsOk_goPoll rfl (countsAre_exec rfl (exec_pWrData s _) hcounts) ?_ rfl rfl
    simp only [writesDue, goPoll, pWrite, hwr, isDataWrite, Bool.toNat_true]
    omega
  case leave_btf =>
    simp only [placeOk, hf] at hplace
    obtain ⟨-, hwr, hidx⟩ := hplace
    simp only [writesDue, drainsDue, stopsDue, hf, hwr] at hcounts
    refine countsOk_goPoll rfl (countsAre_exec rfl (exec_pSetStop s) hcounts) ?_ ?_ rfl
    · simp only [writesDue, goPoll, pUpdate, hwr, isDataWrite, Bool.toNat_false]
      omega
    · simp [drainsDue, goPoll, pUpdate, hwr]; rfl
  case leave_rxne =>
    simp only [placeOk, hf] at hplace
    obtain ⟨-, hrd, -⟩ := hplace
    rw [writesDue_rd_sent hrd (by simp [hf]) (by simp [hf]), drainsDue_rxne hf (by simp [hg]),
      stopsDue_rxne hf] at hcounts
    exact countsOk_afterDrain (s := pRead .data s) hf hrd (countsAre_exec rfl (exec_pRdData s) hcounts)
  case leaveCtrl_wr =>
    simp only [writesDue, drainsDue, stopsDue, hf, hp] at hcounts
    refine countsOk_goPoll rfl (countsAre_exec rfl (exec_pSetStop s) hcounts) ?_ ?_ rfl
    · simp only [writesDue, goPoll, pUpdate, hp, hw]; rfl
    · simp [drainsDue, goPoll, pUpdate, hp]; rfl
  case leaveCtrl_rd =>
    rw [writesDue_rd_sent hp (by simp [hf]) (by simp [hf])] at hcounts
    simp only [drainsDue, stopsDue, hf] at hcounts
    exact countsOk_goPoll_rxne (s := pUpdate .ctrl1 0x0600 0x0200 s) hp
      (by rw [if_pos (by exact hn.symm)]; exact countsAre_exec rfl (exec_pNackStop s) hcounts)
  case leaveCtrl_rxne =>
    simp only [placeOk, hf] at hplace
    obtain ⟨-, hrd, hidx⟩ := hplace
    have hmore : s.idx + 1 ≠ s.rlen := by omega
    rw [writesDue_rd_sent hrd (by simp [hf]) (by simp [hf]), stopsDue_rxne hf, if_neg hmore] at hcounts
    simp only [drainsDue, hf, hg, if_true] at hcounts
    exact countsOk_goPoll_rxne (s := pUpdate .ctrl1 0x0600 0x0200 s) hrd
      (by rw [if_pos (by exact hn)]; exact countsAre_exec rfl (exec_pNackStop s) hcounts)

theorem countsOk_afterCfg {k : CfgStep} {s : State} (hq : seqOk s = true) (hk : s.fsm = .cfg k) :
    countsOk (afterCfg k s) = true := by
  have hop : s.op = if k.ofInit then .init else .reconf := by simpa [seqOk, hk] using hq
  cases k with
  | c10 | g4 => simp [afterCfg, countsOk, hop, CfgStep.ofInit]
  | _ => simp [afterCfg, countsOk, hk]

theorem countsOk_cfgInternal {k : CfgStep} {s : State} (hk : s.fsm = .cfg k) : countsOk (cfgInternal k s) = true := by
  have hcalc : ∀ k', countsOk (cfgCalculate k' s) = true := fun k' => by unfold cfgCalculate; split <;> rfl
  cases k with
  | c6 | g1 => exact hcalc _
  | _ => simp [cfgInternal, countsOk, hk]

/-- A command is taken with an empty trace (log 20), and its first phase calls for nothing yet. -/
theorem countsOk_offer {c : HostCmd} {s t : State} (h : offer c s = .next t) : countsOk t = true := by
  rcases offer_cases h with ⟨-, -, rfl⟩ | ⟨i, -, hi, hx⟩
  · rfl
  · have hnil : s.fsm = .idle → (receive i c s).trace = [] := fun hf => by rw [receive_idle hf]
    rcases exec_command_cases hi hx with ⟨hf, -, hcmd⟩ | ⟨-, -, _, _, _, -, -, -, rfl⟩ | ⟨-, -, rfl⟩
    · have hzero : ∀ {u : State}, u.trace = (receive i c s).trace → countsAre 0 0 0 u = true :=
        fun hu => countsAre_of_trace_nil (hu.trans (hnil (by simpa using hf)))
      rcases hcmd with ⟨_, _, -, rfl⟩ | ⟨_, _, -, rfl⟩ | ⟨_, _, _, -, rfl⟩ | ⟨_, -, -, -, rfl⟩
      · exact countsOk_of_due ⟨rfl, by simp⟩ (hzero rfl) rfl rfl rfl
      · exact countsOk_enterRead (hzero rfl)
      · exact countsOk_of_due ⟨rfl, by simp⟩ (hzero rfl) rfl rfl rfl
      · rfl
    · rfl
    · rfl

/-- Settles O49: every row of the step table counts what the place it leads to calls for. -/
theorem countsInvariant : Obligations.CountsInvariant := by
  unfold Obligations.CountsInvariant
  intro s t hq hs ht
  refine (step_preserves (P := fun s => seqOk s = true ∧ countsOk s = true) (C := fun _ => True)
    (inputs := fun _ _ _ h => h)
    (access := fun s i u h hr _ ha hu => ?_)
    (internal := fun _ _ h hk _ => ⟨seqOk_cfgInternal h.1 hk, countsOk_cfgInternal hk⟩)
    (lend := fun _ _ _ _ => trivial)
    (program := fun _ _ _ _ h => h)
    (command := fun _ _ _ _ _ ho => ⟨seqOk_offer ho, countsOk_offer ho⟩)
    (reset := fun _ _ _ => ⟨rfl, rfl⟩)
    (environment := fun _ _ _ h => h)
    (foreign := fun _ _ _ _ _ h => h)
    (write := fun _ _ _ _ h => h) ⟨hq, hs⟩ ht).2
  exact access_preserves h.1 hr ha hu (fun ht _ => countsOk_of_leadsTo h.1 ht h.2) fun _ _ => countsOk_afterCfg

end Sys2Proof.Machine
end

section
/-! PROOF. The single rows of the step table (41_bus_sequencer.md R142 to R148, R153): the acceptance of a transfer
command, the step that runs the next access, and where each row leads. The bits of `CTRL1` after an update are those of
`bitsSet_underMask`. -/

namespace Sys2Proof.Machine

/-! ### Acceptance -/

/-- Settles O22: an idle constructed block takes the command and begins its first phase. -/
theorem transfersAccepted : Obligations.TransfersAccepted := by
  unfold Obligations.TransfersAccepted
  intro s hf hc
  refine ⟨fun a w => exec_write hf hc a w, fun a n hn => ?_, fun a w n => exec_wrrd hf hc a w n⟩
  rw [exec_read hf hc, enterRead, if_neg (by simpa using Nat.ne_of_gt hn)]
  rfl

/-! ### The next access -/

theorem sixBits_toNat (d : BitVec 6) : sixBits d.toNat = d := by simp [sixBits]

theorem twelveBits_toNat (c : BitVec 12) : twelveBits c.toNat = c := by simp [twelveBits]

/-- The place a micro-operation is brought to is one where it is the next access (log 19). -/
theorem access_atAccess {i : Instr} {s : State} (hi : i.isPort = true) (hwf : s.host.txbuf.wf = true) :
    access (atAccess i s) = some i := by
  cases i with
  | init | write | read | wrrd | reconf | xiter | xact => cases hi
  | pWrData b => exact congrArg (some ∘ Instr.pWrData) (Memory.read_write_same hwf 0 b)
  | pWrFreq d => exact congrArg (some ∘ Instr.pWrFreq) (sixBits_toNat d)
  | pWrTrise r => exact congrArg (some ∘ Instr.pWrTrise) (sixBits_toNat r)
  | pWrCcr fs duty c =>
    have himage : access (atAccess (.pWrCcr fs duty c) s) = some (.pWrCcr fs duty (twelveBits c.toNat)) := by
      cases fs <;> cases duty <;> rfl
    rw [himage, twelveBits_toNat]
  | _ => rfl

/-- That place is one of a running command, and has its row. -/
theorem atAccess_place {i : Instr} (hi : i.isPort = true) (s : State) :
    (atAccess i s).running = true ∧ hasRow (atAccess i s) = true ∧ (atAccess i s).host.inputs = s.host.inputs := by
  cases i with
  | init | write | read | wrrd | reconf | xiter | xact => cases hi
  | _ => exact ⟨rfl, rfl, rfl⟩

/-- A record placed with `withFetchWord` is the next access, undisturbed. -/
theorem step_withFetchWord_record {i : Instr} {r : Record} (hi : i.isPort = true) (h : encode i = .record r)
    (s : State) : step (s.withFetchWord 40 r.toNat) = blockStep (atAccess i s) := by
  have hplaced : s.withFetchWord 40 r.toNat = withInputs (.quiet :: s.host.inputs) (atAccess i s) := by
    simp [State.withFetchWord, issuing, decodeRecord_encode h]
  obtain ⟨-, -, hin⟩ := atAccess_place hi s
  rw [hplaced, ← hin]
  rfl

/-- Settles O27: a step of a running command is its next access and what follows, and a record is placed where it is the
next access. -/
theorem stepRunsNextAccess : Obligations.StepRunsNextAccess := by
  unfold Obligations.StepRunsNextAccess
  refine ⟨fun s t i hin hr hrow ha ht => ⟨access_isPort ha, step_of_access hin hr hrow ha ht⟩, fun s i r h hwf => ?_⟩
  have hi : i.isPort = true := by
    cases i with
    | init | write | read | wrrd | reconf | xiter | xact => cases h
    | _ => rfl
  obtain ⟨hr, hrow, -⟩ := atAccess_place hi s
  have ha := access_atAccess hi hwf
  obtain ⟨t, ht⟩ := exec_port_next hi (atAccess i s)
  refine ⟨t, ha, ht, ?_⟩
  rw [step_withFetchWord_record hi h]
  simp [blockStep, hr, commandStep, hrow, ha, ht, andAdvance]

/-! ### Updates of `CTRL1` -/

theorem bitsSet_setStart (old : Word) : bitsSet [(8, true)] old (underMask 0x0100 old 0x0100) :=
  bitsSet_underMask (by decide) (by decide) old

theorem bitsSet_setStartAck (old : Word) : bitsSet [(8, true), (10, true)] old (underMask 0x0500 old 0x0500) :=
  bitsSet_underMask (by decide) (by decide) old

theorem bitsSet_setStop (old : Word) : bitsSet [(9, true)] old (underMask 0x0200 old 0x0200) :=
  bitsSet_underMask (by decide) (by decide) old

theorem bitsSet_nackStop (old : Word) : bitsSet [(10, false), (9, true)] old (underMask 0x0600 old 0x0200) :=
  bitsSet_underMask (by decide) (by decide) old

/-- A place with a sub-step of its own has its row. -/
theorem step_of_standsAt {f : Fsm} {g : Stage} {s t : State} (h : standsAt f g s)
    (hr : f.polls = true ∨ f = .addrclr) (hrow : hasRow s = true) (hl : leadsTo s t) : step s = .next t := by
  obtain ⟨hin, rfl, -⟩ := h
  refine step_of_leadsTo hin ?_ hrow hl
  rcases hr with hr | hr
  · exact running_of_polls hr
  · simp [State.running, hr]

/-- Settles O29: the request is one update of `CTRL1`. -/
theorem startRequest : Obligations.StartRequest := by
  unfold Obligations.StartRequest
  intro s h
  obtain ⟨-, hf, hg⟩ := id h
  have hrow : hasRow s = true := by simp [hasRow, hf, hg]
  cases hp : s.phase with
  | wr =>
    refine ⟨underMask 0x0100 s.per.ctrl1 0x0100, _, ?_, bitsSet_setStart _, rfl⟩
    rw [step_of_standsAt h (.inl rfl) hrow (leadsTo_request_wr hf hg hp)]
    simp only [goPoll, pUpdate, hf, hp]
    rfl
  | rd =>
    refine ⟨underMask 0x0500 s.per.ctrl1 0x0500, _, ?_, bitsSet_setStartAck _, rfl⟩
    rw [step_of_standsAt h (.inl rfl) hrow (leadsTo_request_rd hf hg hp)]
    simp only [goPoll, pUpdate, hf, hp]
    rfl

/-! ### The monitor call -/

theorem polls_of_pollRow {s : State} (h : pollRow s = true) : s.fsm.polls = true := by
  unfold pollRow at h
  split at h
  · rw [‹s.fsm = _›]; rfl
  · rw [‹s.fsm = _›]; rfl
  · exact h

theorem hasRow_of_pollRow {s : State} (h : pollRow s = true)
    (hg : s.stage = .monitor ∨ ∃ e, s.stage = .clearBerr e) : hasRow s = true := by
  have hf := polls_of_pollRow h
  unfold hasRow
  split
  · rfl
  · rfl
  · rfl
  · rcases hg with hg | ⟨e, hg⟩ <;> simpa [hg] using h

/-- The status read of a monitor call. -/
theorem step_monitor {s : State} (hin : s.host.inputs = []) (hrow : pollRow s = true) (hg : s.stage = .monitor) :
    step s = .next (afterStatusRead (pRead .stat1 s)) :=
  step_of_leadsTo hin (running_of_polls (polls_of_pollRow hrow)) (hasRow_of_pollRow hrow (.inl hg))
    (leadsTo_monitor (polls_of_pollRow hrow) hg)

theorem firstError_of_calm {v : Word} (h : calm v = true) : firstError v = none := by simpa [calm] using h

theorem afterStatusRead_of_calm {s : State} (hcalm : calm s.rdata = true) (hberr : hasBit s.rdata Bit.berr = false) :
    afterStatusRead s = afterMonitor s := by
  simp [afterStatusRead, firstError_of_calm hcalm, hberr]

/-- A monitor call that sees no error flag and no `BERR` is one step (42_error_flag_monitor.md R181). -/
theorem step_monitor_calm {s : State} (hin : s.host.inputs = []) (hrow : pollRow s = true) (hg : s.stage = .monitor)
    (hcalm : calm (s.readValue .stat1) = true) (hberr : hasBit (s.readValue .stat1) Bit.berr = false) :
    step s = .next (afterMonitor (pRead .stat1 s)) := by
  rw [step_monitor hin hrow hg, afterStatusRead_of_calm (s := pRead .stat1 s) hcalm hberr]

/-- A monitor call that sees `BERR` and no error flag is one step more, which clears `BERR`. -/
theorem run_monitor_berr {s : State} (hin : s.host.inputs = []) (hrow : pollRow s = true) (hg : s.stage = .monitor)
    (hcalm : calm (s.readValue .stat1) = true) (hberr : hasBit (s.readValue .stat1) Bit.berr = true) :
    run 2 s = .next (afterMonitor (pClear Bit.berr (goStage (.clearBerr none) (pRead .stat1 s)))) := by
  have hread : step s = .next (goStage (.clearBerr none) (pRead .stat1 s)) := by
    rw [step_monitor hin hrow hg]
    simp only [afterStatusRead, pRead_rdata, firstError_of_calm hcalm, hberr, if_true]
  have hf : (goStage (.clearBerr none) (pRead .stat1 s)).fsm.polls = true := polls_of_pollRow hrow
  have hrow' : hasRow (goStage (.clearBerr none) (pRead .stat1 s)) = true :=
    hasRow_of_pollRow hrow (.inr ⟨none, rfl⟩)
  have hclear := step_of_leadsTo (s := goStage (.clearBerr none) (pRead .stat1 s)) hin (running_of_polls hf) hrow'
    (leadsTo_clearBerr hf rfl)
  rw [run_succ 1 hread, run_succ 0 hclear]
  rfl

theorem goStage_of_stage {g : Stage} {s : State} (h : s.stage = g) : goStage g s = s := by
  subst h
  rfl

theorem goPoll_of_stage {f : Fsm} {s : State} (h : s.stage = .monitor) : goPoll f s = { s with fsm := f } := by
  rw [goPoll, ← h]

theorem withFsm_of_fsm {f : Fsm} {s : State} (h : s.fsm = f) : { s with fsm := f } = s := by
  subst h
  rfl

/-- A flag poll that returned `Ok`: the word read is the snapshot, and the poll is repeated while the flag is 0. -/
theorem pollFlag_eq {n : Nat} {go : State → State} {s : State} (hg : s.stage = .monitor) :
    pollFlag n go s = if hasBit s.rdata n then go (storeSnap s) else storeSnap s := by
  rw [pollFlag, goStage_of_stage (s := storeSnap s) hg]
  rfl

/-- A calm flag poll is one step, and its word decides it (41_bus_sequencer.md R142 `PollFlag`). -/
theorem step_flagPoll {n : Nat} {go : State → State} {s x : State} (hin : s.host.inputs = [])
    (hg : s.stage = .monitor) (hcalm : calm (s.readValue .stat1) = true)
    (hberr : hasBit (s.readValue .stat1) Bit.berr = false) (hrow : pollRow s = true)
    (hm : afterMonitor (pRead .stat1 s) = pollFlag n go (pRead .stat1 s)) (hx : go (storeSnap (pRead .stat1 s)) = x) :
    step s = .next (if hasBit (s.readValue .stat1) n then x else storeSnap (pRead .stat1 s)) := by
  rw [step_monitor_calm hin hrow hg hcalm hberr, hm, pollFlag_eq (by exact hg), hx]
  rfl

/-! The exits of the `BTF` poll. -/

theorem enterRead_of_pos {s : State} (h : 0 < s.rlen) : enterRead s = startPhase .rd s := if_neg (Nat.ne_of_gt h)

theorem enterRead_of_zero {s : State} (h : s.rlen = 0) : enterRead s = complete .overrun s := if_pos h

theorem afterPayload_write {g : Stage} {s : State} (h : s.op = .write) : afterPayload g s = goStage g s := by
  simp only [afterPayload, h]

theorem afterPayload_wrrd {g : Stage} {s : State} (h : s.op = .wrrd) : afterPayload g s = enterRead s := by
  simp only [afterPayload, h]

theorem afterBtf_more {s : State} (h : s.idx + 1 < s.wlen) :
    afterBtf s = goPoll .txe { s with idx := s.idx + 1 } := if_pos h

theorem afterBtf_last {s : State} (h : s.idx + 1 = s.wlen) : afterBtf s = afterPayload .leave s :=
  if_neg (by omega)

/-- Settles O30: a calm monitor call is one step, and its word decides the poll. -/
theorem flagPolls : Obligations.FlagPolls := by
  unfold Obligations.FlagPolls
  rintro s v hin hg rfl hcalm hberr t ht
  obtain rfl : t = storeSnap (pRead .stat1 s) := ht
  have hpoll {n go x} := step_flagPoll (n := n) (go := go) (x := x) hin hg hcalm hberr
  have hlast (hf : s.fsm = .btf) (hi : s.idx + 1 = s.wlen) (hw : s.op.writes = true) : pollRow s = true := by
    simp [pollRow, hf, btfRow, hi, hw]
  refine ⟨fun hf => ?_, fun hf => ?_, fun hf => ?_, fun hf hi => ?_, fun hf hi => ?_, fun hf hi ho => ?_,
    fun hf hi ho hn => ?_, fun hf hi ho hn => ?_⟩
  · rw [hpoll (by simp [pollRow, hf, Fsm.polls]) (afterMonitor_start (by exact hf)) rfl, show Bit.sb = 0 from rfl]
    split
    · exact congrArg _ (goPoll_of_stage (by exact hg))
    · exact congrArg _ (withFsm_of_fsm (by exact hf)).symm
  · exact hpoll (by simp [pollRow, hf, Fsm.polls]) (afterMonitor_addr (by exact hf)) rfl
  · exact hpoll (by simp [pollRow, hf, Fsm.polls]) (afterMonitor_txe (by exact hf)) rfl
  · exact hpoll (by simp [pollRow, hf, drainRow, hi]) (afterMonitor_rxne (by exact hf)) rfl
  · exact hpoll (by simp [pollRow, hf, btfRow, hi]) (afterMonitor_btf (by exact hf))
      ((afterBtf_more (by exact hi)).trans (goPoll_of_stage (by exact hg)))
  · exact hpoll (hlast hf hi (by rw [ho]; rfl)) (afterMonitor_btf (by exact hf))
      ((afterBtf_last (by exact hi)).trans (afterPayload_write (by exact ho)))
  · exact hpoll (hlast hf hi (by rw [ho]; rfl)) (afterMonitor_btf (by exact hf)) ((afterBtf_last (by exact hi)).trans
      ((afterPayload_wrrd (by exact ho)).trans (enterRead_of_pos (by exact hn))))
  · exact hpoll (hlast hf hi (by rw [ho]; rfl)) (afterMonitor_btf (by exact hf)) ((afterBtf_last (by exact hi)).trans
      ((afterPayload_wrrd (by exact ho)).trans (enterRead_of_zero (by exact hn))))

theorem afterSecond_master {s : State} (hf : s.fsm = .master) : afterSecond s =
    goStage (if hasBit s.rdata Bit.msl && hasBit s.rdata Bit.busy then .leave else .monitor) s := by
  simp only [afterSecond, hf]
  split <;> rfl

theorem afterSecond_stop {s : State} (hf : s.fsm = .stop) : afterSecond s =
    if hasBit s.rdata Bit.stop then goStage .monitor s else complete .ok s := by
  simp only [afterSecond, hf]

/-- Settles O31: the monitor call leads to the second read, and the word that one returns decides the poll. -/
theorem masterAndStopPolls : Obligations.MasterAndStopPolls := by
  unfold Obligations.MasterAndStopPolls
  refine ⟨?_, fun s => ⟨fun h => ?_, fun h => ?_⟩⟩
  · rintro s v hin hg hf rfl hcalm t rfl
    have hrow : pollRow s = true := by rcases hf with hf | hf <;> simp [pollRow, hf, Fsm.polls]
    refine ⟨fun hberr => ?_, fun hberr => ⟨_, bitsSet_clearBit _ Bit.berr, ?_⟩⟩
    · rw [step_monitor_calm hin hrow hg hcalm hberr, afterMonitor_second (by exact hf)]
      rfl
    · rw [run_monitor_berr hin hrow hg hcalm hberr, afterMonitor_second (by exact hf)]
      rfl
  · obtain ⟨-, hf, hg⟩ := id h
    refine ⟨_, exec_pRdStat2 s, ?_⟩
    rw [step_of_standsAt h (.inl rfl) (by simp [hasRow, hf, hg]) (leadsTo_second_master hf hg),
      afterSecond_master (by exact hf)]
    rfl
  · obtain ⟨-, hf, hg⟩ := id h
    refine ⟨_, exec_pRdCtrl1 s, ?_⟩
    rw [step_of_standsAt h (.inl rfl) (by simp [hasRow, hf, hg]) (leadsTo_second_stop hf hg),
      afterSecond_stop (by exact hf)]
    rfl

/-! ### The other rows -/

/-- Settles O33: the cases of `afterLatchClear`. -/
theorem latchClearRow : Obligations.LatchClearRow := by
  unfold Obligations.LatchClearRow
  intro s h
  obtain ⟨-, hf, hg⟩ := id h
  have hstep : latchRow s = true → step s = .next (afterLatchClear (pRead .stat2 s)) := fun hrow =>
    step_of_standsAt h (.inr rfl) (by simp [hasRow, hf, hg, hrow]) (leadsTo_leave_addrclr hf hg)
  refine ⟨pRead .stat2 s, rfl, fun hp hw => ?_, fun hp hw ho => ?_, fun hp hw ho hn => ?_, fun hp hw ho hn => ?_,
    fun hp hn => ?_, fun hp hn => ?_⟩
  · rw [hstep (by simp [latchRow, hp, hw])]
    simp [afterLatchClear, hp, hw, goPoll]
  · rw [hstep (by simp [latchRow, hp, ho, Op.writes])]
    simp [afterLatchClear, hp, hw, afterPayload, ho, goStage]
  · rw [hstep (by simp [latchRow, hp, ho, Op.writes])]
    simp [afterLatchClear, hp, hw, afterPayload, ho, enterRead, startPhase, Nat.ne_of_gt hn]
  · rw [hstep (by simp [latchRow, hp, ho, Op.writes])]
    simp [afterLatchClear, hp, hw, afterPayload, ho, enterRead, complete, hn]
  · rw [hstep (by simp [latchRow, hp]; omega)]
    simp [afterLatchClear, hp, hn, goPoll]
  · rw [hstep (by simp [latchRow, hp, hn])]
    simp [afterLatchClear, hp, hn, goStage]

/-- Settles O34: the byte is read from the buffer at the step that writes it. -/
theorem payloadByteSent : Obligations.PayloadByteSent := by
  unfold Obligations.PayloadByteSent
  intro s h
  obtain ⟨-, hf, hg⟩ := id h
  refine ⟨dataWord (s.host.txbuf.read s.idx), ?_, toNat_dataWord _⟩
  rw [step_of_standsAt h (.inl rfl) (by simp [hasRow, hf, hg]) (leadsTo_leave_txe hf hg)]
  rfl

/-- Settles O35: the four rows that request STOP are one update of `CTRL1` each. -/
theorem stopRequests : Obligations.StopRequests := by
  unfold Obligations.StopRequests
  intro s
  refine ⟨_, _, bitsSet_setStop _, bitsSet_nackStop _, fun h hi ho => ?_, fun h hp => ?_, fun h hp => ?_,
    fun h hi => ?_⟩
  all_goals obtain ⟨-, hf, hg⟩ := id h
  · have hrow : btfRow s = true := by simp [btfRow, hi, ho, Op.writes]
    rw [step_of_standsAt h (.inl rfl) (by simp [hasRow, hf, hg, hrow]) (leadsTo_leave_btf hf hg)]
    rfl
  · rw [step_of_standsAt h (.inr rfl) (by simp [hasRow, hf, hg]) (leadsTo_leaveCtrl_addrclr_wr hf hg hp)]
    rfl
  · rw [step_of_standsAt h (.inr rfl) (by simp [hasRow, hf, hg]) (leadsTo_leaveCtrl_addrclr_rd hf hg hp)]
    rfl
  · have hrow : drainRow s = true := by simp [drainRow, hi]
    rw [step_of_standsAt h (.inl rfl) (by simp [hasRow, hf, hg, hrow]) (leadsTo_leaveCtrl_rxne hf hg)]
    rfl

/-- Settles O36: the byte read is stored by one `Memory.write`. -/
theorem drainRowHolds : Obligations.DrainRow := by
  unfold Obligations.DrainRow
  intro s h hi hwf
  obtain ⟨-, hf, hg⟩ := id h
  have hrow : drainRow s = true := by simp [drainRow, hi]
  have hstep := step_of_standsAt h (.inl rfl) (by simp [hasRow, hf, hg, hrow]) (leadsTo_leave_rxne hf hg)
  refine ⟨pRead .data s, _, rfl, Memory.read_write_same hwf s.idx (dataByte s.env.answer),
    fun k hk => Memory.read_write_other _ hk, Memory.wf_write hwf _ _, ?_⟩
  rintro t rfl
  refine ⟨fun hlast => ?_, fun hnext => ?_, fun hmore => ?_⟩
  · rw [hstep, afterDrain, if_pos (by exact hlast)]
    rfl
  · rw [hstep, afterDrain, if_neg (by simp; omega), if_pos (by exact hnext)]
    rfl
  · rw [hstep, afterDrain, if_neg (by simp; omega), if_neg (by simp; omega)]
    rfl

end Sys2Proof.Machine
end

section
/-! PROOF. What an access on leaving a state rests on (41_bus_sequencer.md R153, R156 items 1 to 4;
42_error_flag_monitor.md R181, R188; log 33). A monitor call that returned `Ok` stands at the end of the trace with the
value read (`callReturned`); what `exitOk` asks for after each row follows from it. -/

namespace Sys2Proof.Machine

/-! ### The end of the trace -/

theorem isReadOf_mono {r : Record} {p q : Word → Bool} (hpq : ∀ v, p v = true → q v = true) {e : Event}
    (h : isReadOf r p e = true) : isReadOf r q e = true := by
  unfold isReadOf at h ⊢
  split at h
  · simp only [Bool.and_eq_true] at h ⊢
    exact ⟨h.1, hpq _ h.2⟩
  · cases h

theorem endsInStatus_mono {p q : Word → Bool} (hpq : ∀ v, p v = true → q v = true) {es : List Event}
    (h : endsInStatus p es = true) : endsInStatus q es = true := by
  cases es with
  | nil => exact h
  | cons e es => exact isReadOf_mono hpq h

theorem endsInCall_mono {p q : Word → Bool} (hpq : ∀ v, p v = true → q v = true) {es : List Event}
    (h : endsInCall p es = true) : endsInCall q es = true := by
  have hcalm : ∀ v, (calm v && p v) = true → (calm v && q v) = true := by
    intro v hv
    simp only [Bool.and_eq_true] at hv ⊢
    exact ⟨hv.1, hpq v hv.2⟩
  cases es with
  | nil => exact h
  | cons e es =>
    simp only [endsInCall, Bool.or_eq_true, Bool.and_eq_true] at h ⊢
    rcases h with h | ⟨he, h⟩
    · exact .inl (isReadOf_mono hcalm h)
    · exact .inr ⟨he, endsInStatus_mono hcalm h⟩

/-- The trace ends in a monitor call that reported nothing on the word just read. -/
def callReturned (s : State) : Prop := endsInCall (fun v => decide (v = s.rdata)) s.trace = true

/-- A calm word is such a call at once, without `BERR`. -/
theorem callReturned_pRead {s : State} (h : calm (s.readValue .stat1) = true) : callReturned (pRead .stat1 s) := by
  have hread : isReadOf 0x1400000000 (fun v => calm v && decide (v = s.readValue .stat1))
      (.port (packP 0 Reg.stat1.offset 0 0) (some (s.readValue .stat1))) = true := by
    simp only [isReadOf, h, decide_true, Bool.and_true]
    rfl
  exact Bool.or_eq_true_iff.2 (.inl hread)

/-- With `BERR` the clear ends it (42_error_flag_monitor.md R185, R188). -/
theorem callReturned_pClear {s : State} (hcalm : calm s.rdata = true)
    (h : endsInStatus (fun v => decide (v = s.rdata)) s.trace = true) : callReturned (pClear Bit.berr s) := by
  have hstatus : endsInStatus (fun v => calm v && decide (v = s.rdata)) s.trace = true := by
    refine endsInStatus_mono (fun v hv => ?_) h
    simp only [decide_eq_true_eq] at hv
    simp [hv, hcalm]
  simp only [callReturned, endsInCall, pClear_trace, pClear_rdata, Bool.or_eq_true, Bool.and_eq_true]
  exact .inr ⟨rfl, hstatus⟩

/-- The snapshot is then the word of the call. -/
theorem pollLeft_storeSnap {n : Nat} {s : State} (h : callReturned s) (hn : hasBit s.rdata n = true) :
    pollLeft n (storeSnap s) = true := by
  simp only [pollLeft, storeSnap_snap, hn, Bool.true_and]
  exact h

theorem endsInCall_of_pollLeft {n : Nat} {s : State} (h : pollLeft n s = true) :
    endsInCall (fun v => hasBit v n) s.trace = true := by
  simp only [pollLeft, Bool.and_eq_true] at h
  obtain ⟨hn, hcall⟩ := h
  refine endsInCall_mono (fun v hv => ?_) hcall
  rwa [of_decide_eq_true hv]

/-- A read after such a call. -/
theorem endsInRead_pRead {r : Reg} {p q : Word → Bool} {s : State} (hq : q (s.readValue r) = true)
    (h : endsInCall p s.trace = true) : endsInRead (packP 0 r.offset 0 0) p q (pRead r s).trace = true := by
  simp [endsInRead, isReadOf, hq, h]

/-! ### Places that ask for nothing -/

theorem exitOk_of_monitor {s : State} (h : s.stage = .monitor) : exitOk s = true := by
  unfold exitOk
  rw [h]
  cases s.fsm <;> rfl

theorem exitOk_goPoll (f : Fsm) (s : State) : exitOk (goPoll f s) = true := exitOk_of_monitor rfl

theorem exitOk_goStage_clearErr (f : ErrFlag) (s : State) : exitOk (goStage (.clearErr f) s) = true := by
  unfold exitOk
  cases h : s.fsm <;> simp [h]

theorem exitOk_goStage_clearBerr_some (f : ErrFlag) (s : State) : exitOk (goStage (.clearBerr (some f)) s) = true := by
  unfold exitOk
  cases h : s.fsm <;> simp [h]

/-- Outside a transfer command nothing is asked. -/
theorem exitOk_of_not_transfer {s : State} (h : s.fsm = .idle ∨ (∃ r, s.fsm = .halt r) ∨ ∃ k, s.fsm = .cfg k) :
    exitOk s = true := by
  unfold exitOk
  rcases h with h | ⟨r, h⟩ | ⟨k, h⟩
  all_goals
    rw [h]
    cases s.stage with
    | clearBerr e => cases e <;> rfl
    | _ => rfl

theorem exitOk_complete (r : Result) (s : State) : exitOk (complete r s) = true := exitOk_of_not_transfer (.inl rfl)

/-! ### What follows an access -/

/-- Before the clear of `BERR` alone the trace ends in the status read. -/
theorem exitOk_clearBerr_iff {s : State} (hf : s.fsm.polls = true) (hg : s.stage = .clearBerr none) :
    exitOk s = true ↔ endsInStatus (fun v => decide (v = s.rdata)) s.trace = true := by
  unfold exitOk
  rw [hg]
  cases h : s.fsm <;> simp_all [Fsm.polls]

/-- What stands before the repeated START of `WRRD`. -/
theorem requestOk_repeated {s : State} (ho : s.op = .wrrd) :
    requestOk (startPhase .rd s) = if s.wlen = 0 then latchCleared s else pollLeft Bit.btf s := if_pos ⟨ho, rfl⟩

/-- The START request of any other phase is the first access. -/
theorem requestOk_first {s : State} (hn : s.op = .wrrd → s.phase = .wr) (h : s.trace = []) : requestOk s = true := by
  unfold requestOk
  split
  · next hb => rw [hn hb.1] at hb; cases hb.2
  · exact decide_eq_true h

theorem exitOk_enterRead {s : State} (h : requestOk (startPhase .rd s) = true) : exitOk (enterRead s) = true := by
  unfold enterRead
  split
  · exact exitOk_complete _ s
  · exact h

theorem exitOk_afterPayload {g : Stage} {s : State} (ho : s.op.writes = true) (hw : exitOk (goStage g s) = true)
    (h : s.op = .wrrd → requestOk (startPhase .rd s) = true) : exitOk (afterPayload g s) = true := by
  unfold afterPayload
  cases hop : s.op with
  | write => exact hw
  | wrrd => exact exitOk_enterRead (h hop)
  | _ => simp [hop, Op.writes] at ho

theorem exitOk_pollFlag {n : Nat} {go : State → State} {s : State}
    (hgo : hasBit s.rdata n = true → exitOk (go (storeSnap s)) = true) : exitOk (pollFlag n go s) = true := by
  unfold pollFlag
  split
  · exact hgo ‹_›
  · exact exitOk_of_monitor rfl

theorem exitOk_afterBtf {s : State} (hs : s.fsm = .btf) (hp : placeOk s) (h : pollLeft Bit.btf s = true) :
    exitOk (afterBtf s) = true := by
  simp only [placeOk, hs, phaseOk] at hp
  obtain ⟨hphase, hwr, hidx⟩ := hp
  simp only [hwr] at hphase
  unfold afterBtf
  split
  · exact exitOk_goPoll ..
  · refine exitOk_afterPayload hphase ?_ fun ho => ?_
    · simp only [exitOk, goStage_fsm, goStage_stage, hs]
      exact h
    · rwa [requestOk_repeated ho, if_neg (by omega)]

theorem exitOk_afterMonitor {s : State} (hp : placeOk s) (hf : s.fsm.polls = true) (h : callReturned s) :
    exitOk (afterMonitor s) = true := by
  have hsecond : endsInCall (fun _ => true) s.trace = true := endsInCall_mono (fun _ _ => rfl) h
  cases hs : s.fsm with
  | start =>
    rw [afterMonitor_start hs]
    exact exitOk_pollFlag fun _ => exitOk_goPoll ..
  | master =>
    rw [afterMonitor_second (.inl hs)]
    simp only [exitOk, goStage_fsm, goStage_stage, hs]
    exact hsecond
  | addr =>
    rw [afterMonitor_addr hs]
    exact exitOk_pollFlag fun hn => pollLeft_storeSnap h hn
  | txe =>
    rw [afterMonitor_txe hs]
    refine exitOk_pollFlag fun hn => ?_
    simp only [exitOk, goStage_fsm, goStage_stage, storeSnap_fsm, hs]
    exact pollLeft_storeSnap h hn
  | btf =>
    rw [afterMonitor_btf hs]
    exact exitOk_pollFlag fun hn => exitOk_afterBtf (s := storeSnap s) hs hp (pollLeft_storeSnap h hn)
  | rxne =>
    rw [afterMonitor_rxne hs]
    refine exitOk_pollFlag fun hn => ?_
    simp only [exitOk, goStage_fsm, goStage_stage, storeSnap_fsm, hs]
    exact pollLeft_storeSnap h hn
  | stop =>
    rw [afterMonitor_second (.inr hs)]
    simp only [exitOk, goStage_fsm, goStage_stage, hs]
    exact hsecond
  | _ => simp [hs, Fsm.polls] at hf

theorem exitOk_afterStatusRead {s : State} (hp : placeOk s) (hf : s.fsm.polls = true) :
    exitOk (afterStatusRead (pRead .stat1 s)) = true := by
  unfold afterStatusRead
  split
  · exact exitOk_goStage_clearErr ..
  · next hnone =>
    split
    · refine (exitOk_clearBerr_iff (s := goStage (.clearBerr none) (pRead .stat1 s)) hf rfl).2 ?_
      exact decide_eq_true rfl
    · exact exitOk_afterMonitor (s := pRead .stat1 s) hp hf (callReturned_pRead (decide_eq_true hnone))

theorem exitOk_afterClearErr (f : ErrFlag) (s : State) : exitOk (afterClearErr f s) = true := by
  unfold afterClearErr
  split
  · exact exitOk_goStage_clearBerr_some ..
  · exact exitOk_complete ..

theorem exitOk_afterClearBerr {e : Option ErrFlag} {s : State} (hp : placeOk s) (hf : s.fsm.polls = true)
    (hg : s.stage = .clearBerr e) (he : firstError s.rdata = e) (h : exitOk s = true) :
    exitOk (afterClearBerr e (pClear Bit.berr s)) = true := by
  cases e with
  | some f => exact exitOk_complete ..
  | none =>
    exact exitOk_afterMonitor (s := pClear Bit.berr s) hp hf
      (callReturned_pClear (decide_eq_true he) ((exitOk_clearBerr_iff hf hg).1 h))

/-- Row `S_ADDRCLR`: the latch-clearing read stands at the end of the trace, and before it the call that saw `ADDR`. -/
theorem exitOk_afterLatchClear {s : State} (hs : s.fsm = .addrclr) (hp : phaseOk s = true)
    (h : latchCleared s = true) : exitOk (afterLatchClear s) = true := by
  have hctrl : exitOk (goStage .leaveCtrl s) = true := by
    simp only [exitOk, goStage_fsm, goStage_stage, hs]
    exact h
  unfold afterLatchClear
  split
  · next hwr =>
    simp only [phaseOk, hwr] at hp
    split
    · exact exitOk_goPoll ..
    · next hzero =>
      refine exitOk_afterPayload hp hctrl fun ho => ?_
      rwa [requestOk_repeated ho, if_pos (Nat.eq_zero_of_not_pos hzero)]
  · split
    · exact exitOk_goPoll ..
    · exact hctrl

theorem exitOk_afterDrain {s : State} (hs : s.fsm = .rxne) (hn : hasBit s.snap Bit.rxne = true)
    (h : endsInRead 0x1000000000 (fun v => decide (v = s.snap)) (fun _ => true) s.trace = true) :
    exitOk (afterDrain s) = true := by
  unfold afterDrain
  split
  · exact exitOk_goPoll ..
  · split
    · simp only [exitOk, goStage_fsm, goStage_stage, storeReceived_fsm, hs, goStage_snap, storeReceived_snap, hn,
        Bool.true_and]
      exact h
    · exact exitOk_goPoll ..

/-- Every row of the step table keeps what the accesses on leaving a state rest on. -/
theorem exitOk_of_leadsTo {s t : State} (hq : seqOk s = true) (ht : transferring s) (h : exitOk s = true)
    (hl : leadsTo s t) : exitOk t = true := by
  have hplace : placeOk s := ((seqOk_iff ht.1 ht.2).1 hq).1
  refine leadsTo_cases (P := fun t => exitOk t = true) hq ht hl
    (request_wr := fun _ _ _ => exitOk_goPoll ..)
    (request_rd := fun _ _ _ => exitOk_goPoll ..)
    (monitor := fun hf _ => exitOk_afterStatusRead hplace hf)
    (clearErr := fun f _ _ => exitOk_afterClearErr f _)
    (clearBerr := fun e hf hg he => exitOk_afterClearBerr hplace hf hg he h)
    (second_master := fun hf hg => ?second_master)
    (second_stop := fun hf _ => ?second_stop)
    (leave_master := fun _ _ => exitOk_goPoll ..)
    (leave_addrclr := fun hf hg => ?leave_addrclr)
    (leave_txe := fun _ _ => exitOk_goPoll ..)
    (leave_btf := fun _ _ _ _ => exitOk_goPoll ..)
    (leave_rxne := fun hf hg => ?leave_rxne)
    (leaveCtrl_wr := fun _ _ _ _ _ => exitOk_goPoll ..)
    (leaveCtrl_rd := fun _ _ _ _ => exitOk_goPoll ..)
    (leaveCtrl_rxne := fun _ _ _ => exitOk_goPoll ..)
  case second_master =>
    have hcall : endsInCall (fun _ => true) s.trace = true := by simpa only [exitOk, hf, hg] using h
    simp only [afterSecond, pRead_fsm, hf]
    split
    · next hbits =>
      simp only [exitOk, goStage_fsm, goStage_stage, pRead_fsm, hf]
      exact endsInRead_pRead (r := .stat2) (q := fun v => hasBit v Bit.msl && hasBit v Bit.busy) hbits hcall
    · exact exitOk_of_monitor rfl
  case second_stop =>
    simp only [afterSecond, pRead_fsm, hf]
    split
    · exact exitOk_of_monitor rfl
    · exact exitOk_complete ..
  case leave_addrclr =>
    have hleft : pollLeft Bit.addr s = true := by simpa only [exitOk, hf, hg] using h
    simp only [placeOk, hf] at hplace
    exact exitOk_afterLatchClear (s := pRead .stat2 s) hf hplace
      (endsInRead_pRead (r := .stat2) (q := fun _ => true) rfl (endsInCall_of_pollLeft hleft))
  case leave_rxne =>
    have hleft : pollLeft Bit.rxne s = true := by simpa only [exitOk, hf, hg] using h
    simp only [pollLeft, Bool.and_eq_true] at hleft
    obtain ⟨hn, hcall⟩ := hleft
    exact exitOk_afterDrain (s := pRead .data s) hf hn
      (endsInRead_pRead (r := .data) (q := fun _ => true) rfl hcall)

/-- A command is taken with an empty trace (log 20). -/
theorem exitOk_offer {c : HostCmd} {s t : State} (h : offer c s = .next t) : exitOk t = true := by
  rcases offer_cases h with ⟨-, -, rfl⟩ | ⟨i, -, hi, hx⟩
  · exact exitOk_of_not_transfer (.inr (.inl ⟨_, rfl⟩))
  · rcases exec_command_cases hi hx with ⟨hf, -, hcmd⟩ | ⟨-, -, _, _, _, -, -, -, rfl⟩ | ⟨-, -, rfl⟩
    · have hnil : (receive i c s).trace = [] := by rw [receive_idle (by simpa using hf)]
      rcases hcmd with ⟨_, _, -, rfl⟩ | ⟨_, _, -, rfl⟩ | ⟨_, _, _, -, rfl⟩ | ⟨_, -, -, -, rfl⟩
      · exact requestOk_first (fun ho => rfl) hnil
      · exact exitOk_enterRead (requestOk_first (fun ho => by cases ho) hnil)
      · exact requestOk_first (fun ho => rfl) hnil
      · exact exitOk_of_not_transfer (.inr (.inr ⟨_, rfl⟩))
    · exact exitOk_of_not_transfer (.inr (.inr ⟨_, rfl⟩))
    · exact exitOk_of_not_transfer (.inr (.inl ⟨_, rfl⟩))

/-- The configuration commands stay configuration commands, or end. -/
theorem afterCfg_fsm {k : CfgStep} {s : State} (hk : s.fsm = .cfg k) :
    (afterCfg k s).fsm = .idle ∨ ∃ k', (afterCfg k s).fsm = .cfg k' := by
  cases k with
  | c10 | g4 => exact .inl rfl
  | c5 | c7 | c8 | c9 | g2 | g3 => exact .inr ⟨_, rfl⟩
  | _ => exact .inr ⟨_, hk⟩

theorem cfgInternal_fsm {k : CfgStep} {s : State} (hk : s.fsm = .cfg k) :
    (∃ r, (cfgInternal k s).fsm = .halt r) ∨ ∃ k', (cfgInternal k s).fsm = .cfg k' := by
  have hcalc : ∀ k', (∃ r, (cfgCalculate k' s).fsm = .halt r) ∨ ∃ k'', (cfgCalculate k' s).fsm = .cfg k'' := by
    intro k'
    unfold cfgCalculate
    split
    · exact .inr ⟨_, rfl⟩
    · exact .inl ⟨_, rfl⟩
  cases k with
  | c6 | g1 => exact hcalc _
  | c1 | c2 | c3 | c4 => exact .inr ⟨_, rfl⟩
  | _ => exact .inr ⟨_, hk⟩

/-- Settles O50: every access on leaving a state follows the rows that lead to it. -/
theorem exitInvariant : Obligations.ExitInvariant := by
  unfold Obligations.ExitInvariant
  intro s t hq hs ht
  exact (step_preserves (P := fun s => seqOk s = true ∧ exitOk s = true) (C := fun _ => True)
    (inputs := fun _ _ _ h => h)
    (access := fun s i u h hr _ ha hu => access_preserves h.1 hr ha hu
      (fun ht _ => exitOk_of_leadsTo h.1 ht h.2)
      fun _ _ _ hk => exitOk_of_not_transfer ((afterCfg_fsm hk).imp_right .inr))
    (internal := fun _ _ h hk _ => ⟨seqOk_cfgInternal h.1 hk, exitOk_of_not_transfer (.inr (cfgInternal_fsm hk))⟩)
    (lend := fun _ _ _ _ => trivial)
    (program := fun _ _ _ _ h => h)
    (command := fun _ _ _ _ _ ho => ⟨seqOk_offer ho, exitOk_offer ho⟩)
    (reset := fun _ _ _ => ⟨rfl, rfl⟩)
    (environment := fun _ _ _ h => h)
    (foreign := fun _ _ _ _ _ h => h)
    (write := fun _ _ _ _ h => h) ⟨hq, hs⟩ ht).2

end Sys2Proof.Machine
end

section
/-! PROOF. The acknowledge contract of a read phase (41_bus_sequencer.md R149, R151; 70_reset_and_hazards.md R254). No
access but `P.SET_START_ACK` and `P.NACK_STOP` changes `ACK`, and the environment does not (10_state.md R41). A read phase
is open until `r9` (`ackOpen`) and closed after it (`ackClosed`). -/

namespace Sys2Proof.Machine

/-! ### The bit `ACK` -/

/-- `CTRL1.ACK` (10_state.md R32). -/
def ackBit (s : State) : Bool := hasBit s.per.ctrl1 Bit.ack

/-- `CTRL1` reads with `ACK` as the block last set it (log 3). -/
theorem ack_ctrl1Answer (old a : Word) : hasBit (ctrl1Answer old a) Bit.ack = hasBit old Bit.ack := by
  simp [hasBit_ctrl1Answer, Bit.ack]

theorem ackBit_pRead (r : Reg) (s : State) : ackBit (pRead r s) = ackBit s := by
  cases r with
  | ctrl1 => exact ack_ctrl1Answer _ _
  | _ => rfl

theorem ackBit_environmentActs (r : Reg) (v : Word) (s : State) : ackBit (environmentActs r v s) = ackBit s := by
  cases r with
  | ctrl1 => exact ack_ctrl1Answer _ _
  | _ => rfl

theorem ackBit_setStart (s : State) : ackBit (pUpdate .ctrl1 0x0100 0x0100 s) = ackBit s :=
  (bitsSet_setStart s.per.ctrl1).2 Bit.ack (by simp [Bit.ack])

theorem ackBit_setStartAck (s : State) : ackBit (pUpdate .ctrl1 0x0500 0x0500 s) = true :=
  (bitsSet_setStartAck s.per.ctrl1).1 (10, true) (by simp)

theorem ackBit_setStop (s : State) : ackBit (pUpdate .ctrl1 0x0200 0x0200 s) = ackBit s :=
  (bitsSet_setStop s.per.ctrl1).2 Bit.ack (by simp [Bit.ack])

theorem ackBit_nackStop (s : State) : ackBit (pUpdate .ctrl1 0x0600 0x0200 s) = false :=
  (bitsSet_nackStop s.per.ctrl1).1 (10, false) (by simp)

/-! ### `r9` in the trace -/

/-- `r9` was not made, and `ACK` is 1. -/
def ackOpen (s : State) : Prop := ackBit s = true ∧ notNacked s = true

/-- `r9` was made once with `k` reads of `DATA` after it, and `ACK` is 0. -/
def ackClosed (k : Nat) (s : State) : Prop := ackBit s = false ∧ nackedThenRead k s = true

section Exec
variable {i : Instr} {s u : State} (hi : i.isPort = true) (hu : exec i s = .next u)
include hi hu

theorem notNacked_exec (hn : isNackStop i = false) (h : notNacked s = true) : notNacked u = true := by
  have hcount := countAccess_exec hi hu isNackStop
  simp only [notNacked, decide_eq_true_eq] at h ⊢
  rw [hcount, h, hn]
  rfl

theorem nackedThenRead_exec {k : Nat} (hn : isNackStop i = false) (h : nackedThenRead k s = true) :
    nackedThenRead (k + (isDataRead i).toNat) u = true := by
  have hcount := countAccess_exec hi hu isNackStop
  obtain ⟨e, htrace, he⟩ := trace_exec hi hu
  simp only [nackedThenRead, Bool.and_eq_true, decide_eq_true_eq] at h ⊢
  obtain ⟨hone, hread⟩ := h
  refine ⟨by rw [hcount, hone, hn]; rfl, ?_⟩
  have hsince : sinceNackStop u.trace = e :: sinceNackStop s.trace := by
    simp [sinceNackStop, htrace, he, hn]
  rw [hsince, ← hread]
  simp only [accessesIn, List.countP_cons, he]
  cases isDataRead i <;> rfl

theorem nackedThenRead_zero_exec (hn : isNackStop i = true) (h : notNacked s = true) : nackedThenRead 0 u = true := by
  have hcount := countAccess_exec hi hu isNackStop
  obtain ⟨e, htrace, he⟩ := trace_exec hi hu
  simp only [notNacked, decide_eq_true_eq] at h
  have hsince : sinceNackStop u.trace = [] := by simp [sinceNackStop, htrace, he, hn]
  simp only [nackedThenRead, Bool.and_eq_true, decide_eq_true_eq]
  exact ⟨by rw [hcount, h, hn]; rfl, by rw [hsince]; rfl⟩

end Exec

/-! ### What a place asks for -/

/-- Before the reads of a phase: `r9` was not made, and in a read phase `ACK` is 1. -/
def ackWaiting (s : State) : Prop := notNacked s = true ∧ (s.phase = .wr ∨ ackBit s = true)

theorem ackOk_rxne_iff {s : State} (hf : s.fsm = .rxne) :
    ackOk s = true ↔ if s.idx + 1 = s.rlen then ackClosed 0 s else ackOpen s := by
  simp only [ackOk, hf]
  split <;> simp [ackClosed, ackOpen, ackBit]

theorem ackOk_stop_iff {s : State} (hf : s.fsm = .stop) :
    ackOk s = true ↔ (s.phase = .wr → notNacked s = true) ∧ (s.phase = .rd → ackClosed 1 s) := by
  simp only [ackOk, hf]
  cases hp : s.phase <;> simp [ackClosed, ackBit]

theorem ackOk_start_iff {s : State} (hf : s.fsm = .start) :
    ackOk s = true ↔ notNacked s = true ∧ (s.phase = .wr ∨ s.stage = .request ∨ ackBit s = true) := by
  simp [ackOk, hf, ackBit, or_assoc]

theorem ackOk_waiting_iff {s : State}
    (hf : s.fsm = .master ∨ s.fsm = .addr ∨ s.fsm = .addrclr ∨ s.fsm = .txe ∨ s.fsm = .btf) :
    ackOk s = true ↔ ackWaiting s := by
  rcases hf with hf | hf | hf | hf | hf <;> simp [ackOk, hf, ackWaiting, ackBit]

theorem ackOk_of_not_transfer {s : State} (h : s.fsm = .idle ∨ (∃ r, s.fsm = .halt r) ∨ ∃ k, s.fsm = .cfg k) :
    ackOk s = true := by
  rcases h with h | ⟨r, h⟩ | ⟨k, h⟩ <;> simp only [ackOk, h]

/-- What a place asks for is kept where the place, `ACK` and what is known of `r9` are. -/
theorem ackOk_mono {s t : State} (hf : t.fsm = s.fsm) (hp : t.phase = s.phase) (hi : t.idx = s.idx)
    (hr : t.rlen = s.rlen) (hb : ackBit t = ackBit s) (hg : s.stage = .request → t.stage = .request)
    (hn : notNacked s = true → notNacked t = true)
    (hc : ∀ k, nackedThenRead k s = true → nackedThenRead k t = true) (h : ackOk s = true) : ackOk t = true := by
  have hopen : ackOpen s → ackOpen t := fun ⟨ha, hx⟩ => ⟨hb.trans ha, hn hx⟩
  have hclosed {k} : ackClosed k s → ackClosed k t := fun ⟨ha, hx⟩ => ⟨hb.trans ha, hc k hx⟩
  have hwait : ackWaiting s → ackWaiting t := fun ⟨hx, ha⟩ => ⟨hn hx, by rwa [hp, hb]⟩
  cases hs : s.fsm with
  | idle => exact ackOk_of_not_transfer (.inl (hf.trans hs))
  | halt r => exact ackOk_of_not_transfer (.inr (.inl ⟨r, hf.trans hs⟩))
  | cfg k => exact ackOk_of_not_transfer (.inr (.inr ⟨k, hf.trans hs⟩))
  | start =>
    obtain ⟨hx, ha⟩ := (ackOk_start_iff hs).1 h
    rw [ackOk_start_iff (hf.trans hs), hp, hb]
    exact ⟨hn hx, ha.imp_right (.imp_left hg)⟩
  | rxne =>
    have hrx := (ackOk_rxne_iff hs).1 h
    rw [ackOk_rxne_iff (hf.trans hs), hi, hr]
    split
    · rw [if_pos ‹_›] at hrx
      exact hclosed hrx
    · rw [if_neg ‹_›] at hrx
      exact hopen hrx
  | stop =>
    obtain ⟨hw, hrd⟩ := (ackOk_stop_iff hs).1 h
    rw [ackOk_stop_iff (hf.trans hs), hp]
    exact ⟨fun hx => hn (hw hx), fun hx => hclosed (hrd hx)⟩
  | master | addr | addrclr | txe | btf =>
    have hfs : t.fsm = s.fsm := hf
    rw [hs] at hfs
    exact (ackOk_waiting_iff (by simp [hfs])).2 (hwait ((ackOk_waiting_iff (by simp [hs])).1 h))

theorem ackOk_goStage {g : Stage} {s : State} (hg : s.stage ≠ .request) (h : ackOk s = true) :
    ackOk (goStage g s) = true :=
  ackOk_mono (s := s) (t := goStage g s) rfl rfl rfl rfl rfl (fun hs => absurd hs hg) id (fun _ => id) h

/-- An access that is neither `r9` nor a read of `DATA` and keeps `ACK` keeps the contract. -/
theorem ackOk_exec {i : Instr} {s u : State} (hi : i.isPort = true) (hu : exec i s = .next u)
    (hn : isNackStop i = false) (hd : isDataRead i = false) (hb : ackBit u = ackBit s) (h : ackOk s = true) :
    ackOk u = true := by
  have hframe := exec_port_frame hi hu
  refine ackOk_mono (s := s) (by rw [hframe]) (by rw [hframe]) (by rw [hframe]) (by rw [hframe]) hb
    (fun hs => by rw [hframe]; exact hs) (notNacked_exec hi hu hn) (fun k hk => ?_) h
  have hread := nackedThenRead_exec hi hu hn hk
  rwa [hd] at hread

theorem ackOk_complete (r : Result) (s : State) : ackOk (complete r s) = true := ackOk_of_not_transfer (.inl rfl)

/-! ### What follows an access -/

/-- A poll of a phase that still waits for its reads. -/
theorem ackOk_goPoll {f : Fsm} {s : State}
    (hf : f = .start ∨ f = .master ∨ f = .addr ∨ f = .addrclr ∨ f = .txe ∨ f = .btf) (h : ackWaiting s) :
    ackOk (goPoll f s) = true := by
  rcases hf with rfl | hf
  · exact (ackOk_start_iff (s := goPoll .start s) rfl).2 ⟨h.1, h.2.imp_right .inr⟩
  · exact (ackOk_waiting_iff (s := goPoll f s) hf).2 h

/-- The START request of the read phase sets `ACK` itself. -/
theorem ackOk_enterRead {s : State} (h : notNacked s = true) : ackOk (enterRead s) = true := by
  unfold enterRead
  split
  · exact ackOk_complete ..
  · exact (ackOk_start_iff (s := startPhase .rd s) rfl).2 ⟨h, .inr (.inl rfl)⟩

theorem ackOk_afterPayload {g : Stage} {s : State} (hg : s.stage ≠ .request) (hn : notNacked s = true)
    (h : ackOk s = true) : ackOk (afterPayload g s) = true := by
  unfold afterPayload
  cases s.op with
  | write => exact ackOk_goStage hg h
  | wrrd => exact ackOk_enterRead hn
  | _ => exact h

theorem ackOk_afterBtf {s : State} (hs : s.fsm = .btf) (hg : s.stage ≠ .request) (h : ackOk s = true) :
    ackOk (afterBtf s) = true := by
  have hw : ackWaiting s := (ackOk_waiting_iff (by simp [hs])).1 h
  unfold afterBtf
  split
  · exact ackOk_goPoll (s := { s with idx := s.idx + 1 }) (by simp) hw
  · exact ackOk_afterPayload hg hw.1 h

theorem ackOk_pollFlag {n : Nat} {go : State → State} {s : State} (hg : s.stage ≠ .request) (h : ackOk s = true)
    (hgo : ackOk (go (storeSnap s)) = true) : ackOk (pollFlag n go s) = true := by
  unfold pollFlag
  split
  · exact hgo
  · exact ackOk_goStage (s := storeSnap s) hg h

theorem ackOk_afterMonitor {s : State} (hf : s.fsm.polls = true) (hg : s.stage ≠ .request) (h : ackOk s = true) :
    ackOk (afterMonitor s) = true := by
  have hleave : ackOk (goStage .leave (storeSnap s)) = true := ackOk_goStage (s := storeSnap s) hg h
  cases hs : s.fsm with
  | start =>
    obtain ⟨hn, hw⟩ := (ackOk_start_iff hs).1 h
    rw [afterMonitor_start hs]
    exact ackOk_pollFlag hg h
      (ackOk_goPoll (s := storeSnap s) (by simp) ⟨hn, hw.imp_right fun hr => hr.resolve_left hg⟩)
  | addr =>
    have hw : ackWaiting s := (ackOk_waiting_iff (by simp [hs])).1 h
    rw [afterMonitor_addr hs]
    exact ackOk_pollFlag hg h ((ackOk_waiting_iff (by simp)).2 hw)
  | txe =>
    rw [afterMonitor_txe hs]
    exact ackOk_pollFlag hg h hleave
  | btf =>
    rw [afterMonitor_btf hs]
    exact ackOk_pollFlag hg h (ackOk_afterBtf (s := storeSnap s) hs hg h)
  | rxne =>
    rw [afterMonitor_rxne hs]
    exact ackOk_pollFlag hg h hleave
  | master | stop =>
    rw [afterMonitor_second (by simp [hs])]
    exact ackOk_goStage hg h
  | _ => simp [hs, Fsm.polls] at hf

theorem ackOk_afterStatusRead {s : State} (hf : s.fsm.polls = true) (hg : s.stage ≠ .request) (h : ackOk s = true) :
    ackOk (afterStatusRead s) = true := by
  unfold afterStatusRead
  split
  · exact ackOk_goStage hg h
  · split
    · exact ackOk_goStage hg h
    · exact ackOk_afterMonitor hf hg h

theorem ackOk_afterClearErr {f : ErrFlag} {s : State} (hg : s.stage ≠ .request) (h : ackOk s = true) :
    ackOk (afterClearErr f s) = true := by
  unfold afterClearErr
  split
  · exact ackOk_goStage hg h
  · exact ackOk_complete ..

theorem ackOk_afterClearBerr {e : Option ErrFlag} {s : State} (hf : s.fsm.polls = true) (hg : s.stage ≠ .request)
    (h : ackOk s = true) : ackOk (afterClearBerr e s) = true := by
  cases e with
  | some f => exact ackOk_complete ..
  | none => exact ackOk_afterMonitor hf hg h

theorem ackOk_afterSecond {s : State} (hg : s.stage ≠ .request) (h : ackOk s = true) :
    ackOk (afterSecond s) = true := by
  unfold afterSecond
  split
  · split <;> exact ackOk_goStage hg h
  · split
    · exact ackOk_goStage hg h
    · exact ackOk_complete ..
  · exact h

/-- Where a byte that is not the last is awaited the phase is open. -/
theorem ackOk_rxne_open {s : State} (hf : s.fsm = .rxne) (hi : s.idx + 1 ≠ s.rlen) (h : ackOpen s) :
    ackOk s = true := (ackOk_rxne_iff hf).2 (by rwa [if_neg hi])

/-- Where the last byte is awaited it is closed. -/
theorem ackOk_rxne_closed {s : State} (hf : s.fsm = .rxne) (hi : s.idx + 1 = s.rlen) (h : ackClosed 0 s) :
    ackOk s = true := (ackOk_rxne_iff hf).2 (by rwa [if_pos hi])

theorem ackOpen_of_waiting {s : State} (hp : s.phase = .rd) (h : ackWaiting s) : ackOpen s :=
  ⟨h.2.resolve_left (by simp [hp]), h.1⟩

theorem ackOk_afterLatchClear {s : State} (hs : s.fsm = .addrclr) (hg : s.stage ≠ .request) (h : ackOk s = true) :
    ackOk (afterLatchClear s) = true := by
  have hw : ackWaiting s := (ackOk_waiting_iff (by simp [hs])).1 h
  unfold afterLatchClear
  split
  · split
    · exact ackOk_goPoll (s := { s with idx := 0 }) (by simp) hw
    · exact ackOk_afterPayload hg hw.1 h
  · next hp =>
    split
    · exact ackOk_rxne_open (s := goPoll .rxne { s with idx := 0 }) rfl (by simp; omega) (ackOpen_of_waiting hp hw)
    · exact ackOk_goStage hg h

/-- Row `S_RXNE(i)`, `s` being the state before the read of `DATA`. -/
theorem ackOk_afterDrain {s : State} (hs : s.fsm = .rxne) (hp : s.phase = .rd) (h : ackOk s = true) :
    ackOk (afterDrain (pRead .data s)) = true := by
  have hrx := (ackOk_rxne_iff hs).1 h
  have hu : exec .pRdData s = .next (pRead .data s) := rfl
  unfold afterDrain
  split
  · next hlast =>
    rw [if_pos (by exact hlast)] at hrx
    obtain ⟨ha, hn⟩ := hrx
    refine (ackOk_stop_iff (s := goPoll .stop (storeReceived (pRead .data s))) rfl).2
      ⟨fun hw => ?_, fun _ => ⟨ha, nackedThenRead_exec rfl hu rfl hn⟩⟩
    simp [hp] at hw
  · next hmore =>
    rw [if_neg (by exact hmore)] at hrx
    obtain ⟨ha, hn⟩ := hrx
    have hopen : ackOpen (pRead .data s) := ⟨ha, notNacked_exec rfl hu rfl hn⟩
    split
    · exact ackOk_rxne_open (s := goStage .leaveCtrl (storeReceived (pRead .data s))) hs hmore hopen
    · next hnot =>
      exact ackOk_rxne_open (s := goPoll .rxne { storeReceived (pRead .data s) with idx := s.idx + 1 }) rfl hnot hopen

/-! ### The rows -/

theorem notNacked_setStop {s : State} (h : notNacked s = true) :
    notNacked (pUpdate .ctrl1 0x0200 0x0200 s) = true := notNacked_exec rfl (exec_pSetStop s) rfl h

theorem notNacked_pWrite {s : State} (b : Byte) (h : notNacked s = true) : notNacked (pWrite (dataWord b) s) = true :=
  notNacked_exec (i := .pWrData b) rfl rfl rfl h

theorem ackClosed_nackStop {s : State} (h : notNacked s = true) : ackClosed 0 (pUpdate .ctrl1 0x0600 0x0200 s) :=
  ⟨ackBit_nackStop s, nackedThenRead_zero_exec rfl (exec_pNackStop s) rfl h⟩

/-- Every row of the step table keeps the contract. -/
theorem ackOk_of_leadsTo {s t : State} (hq : seqOk s = true) (ht : transferring s) (h : ackOk s = true)
    (hl : leadsTo s t) : ackOk t = true := by
  have hplace : placeOk s := ((seqOk_iff ht.1 ht.2).1 hq).1
  refine leadsTo_cases (P := fun t => ackOk t = true) hq ht hl
    (request_wr := fun hf hg hp => ?request_wr)
    (request_rd := fun hf hg hp => ?request_rd)
    (monitor := fun hf hg => ?monitor)
    (clearErr := fun f hf hg => ?clearErr)
    (clearBerr := fun e hf hg _ => ?clearBerr)
    (second_master := fun hf hg => ?second_master)
    (second_stop := fun hf hg => ?second_stop)
    (leave_master := fun hf hg => ?leave_master)
    (leave_addrclr := fun hf hg => ?leave_addrclr)
    (leave_txe := fun hf hg => ?leave_txe)
    (leave_btf := fun hf hg ho _ => ?leave_btf)
    (leave_rxne := fun hf hg => ?leave_rxne)
    (leaveCtrl_wr := fun hf hg hp _ _ => ?leaveCtrl_wr)
    (leaveCtrl_rd := fun hf hg hp hn => ?leaveCtrl_rd)
    (leaveCtrl_rxne := fun hf hg hn => ?leaveCtrl_rxne)
  case request_wr =>
    obtain ⟨hn, -⟩ := (ackOk_start_iff hf).1 h
    exact ackOk_goPoll (s := pUpdate .ctrl1 0x0100 0x0100 s) (by simp)
      ⟨notNacked_exec rfl (exec_pSetStart s) rfl hn, .inl hp⟩
  case request_rd =>
    obtain ⟨hn, -⟩ := (ackOk_start_iff hf).1 h
    exact ackOk_goPoll (s := pUpdate .ctrl1 0x0500 0x0500 s) (by simp)
      ⟨notNacked_exec rfl (exec_pSetStartAck s) rfl hn, .inr (ackBit_setStartAck s)⟩
  case monitor =>
    exact ackOk_afterStatusRead (s := pRead .stat1 s) hf (by simp [hg])
      (ackOk_exec rfl (exec_pRdStat1 s) rfl rfl (ackBit_pRead ..) h)
  case clearErr =>
    exact ackOk_afterClearErr (s := pClear (errBit f) s) (by simp [hg])
      (ackOk_exec (by cases f <;> rfl) (exec_clearOf f s) (by cases f <;> rfl) (by cases f <;> rfl) rfl h)
  case clearBerr =>
    exact ackOk_afterClearBerr (s := pClear Bit.berr s) hf (by simp [hg])
      (ackOk_exec rfl (exec_pClrBerr s) rfl rfl rfl h)
  case second_master =>
    exact ackOk_afterSecond (s := pRead .stat2 s) (by simp [hg])
      (ackOk_exec rfl (exec_pRdStat2 s) rfl rfl (ackBit_pRead ..) h)
  case second_stop =>
    exact ackOk_afterSecond (s := pRead .ctrl1 s) (by simp [hg])
      (ackOk_exec rfl (exec_pRdCtrl1 s) rfl rfl (ackBit_pRead ..) h)
  case leave_master =>
    obtain ⟨hn, ha⟩ := (ackOk_waiting_iff (by simp [hf])).1 h
    exact ackOk_goPoll (by simp) ⟨notNacked_pWrite _ hn, ha⟩
  case leave_addrclr =>
    exact ackOk_afterLatchClear (s := pRead .stat2 s) hf (by simp [hg])
      (ackOk_exec rfl (exec_pRdStat2 s) rfl rfl (ackBit_pRead ..) h)
  case leave_txe =>
    obtain ⟨hn, ha⟩ := (ackOk_waiting_iff (by simp [hf])).1 h
    exact ackOk_goPoll (by simp) ⟨notNacked_pWrite _ hn, ha⟩
  case leave_btf =>
    obtain ⟨hn, -⟩ := (ackOk_waiting_iff (by simp [hf])).1 h
    simp only [placeOk, hf] at hplace
    obtain ⟨-, hp, -⟩ := hplace
    refine (ackOk_stop_iff (s := goPoll .stop (pUpdate .ctrl1 0x0200 0x0200 s)) rfl).2
      ⟨fun _ => notNacked_setStop hn, fun hrd => ?_⟩
    simp [hp] at hrd
  case leave_rxne =>
    simp only [placeOk, hf] at hplace
    obtain ⟨-, hp, -⟩ := hplace
    exact ackOk_afterDrain hf hp h
  case leaveCtrl_wr =>
    obtain ⟨hn, -⟩ := (ackOk_waiting_iff (by simp [hf])).1 h
    refine (ackOk_stop_iff (s := goPoll .stop (pUpdate .ctrl1 0x0200 0x0200 s)) rfl).2
      ⟨fun _ => notNacked_setStop hn, fun hrd => ?_⟩
    simp [hp] at hrd
  case leaveCtrl_rd =>
    obtain ⟨hx, -⟩ := (ackOk_waiting_iff (by simp [hf])).1 h
    exact ackOk_rxne_closed (s := goPoll .rxne { pUpdate .ctrl1 0x0600 0x0200 s with idx := 0 }) rfl
      (by simp [hn]) (ackClosed_nackStop hx)
  case leaveCtrl_rxne =>
    have hrx := (ackOk_rxne_iff hf).1 h
    rw [if_neg (by omega)] at hrx
    exact ackOk_rxne_closed (s := goPoll .rxne { pUpdate .ctrl1 0x0600 0x0200 s with idx := s.idx + 1 }) rfl
      hn (ackClosed_nackStop hrx.2)

/-! ### Every step -/

/-- A transfer command runs on a constructed block (20_memory.md R80). -/
def constructedOk (s : State) : Prop := transferring s → s.constructed = true

theorem constructedOk_of_not_transfer {s : State} (h : s.fsm = .idle ∨ (∃ r, s.fsm = .halt r) ∨ ∃ k, s.fsm = .cfg k) :
    constructedOk s := by
  rintro ⟨hr, hc⟩
  rcases h with h | ⟨r, h⟩ | ⟨k, h⟩
  · simp [State.running, h] at hr
  · simp [State.running, h] at hr
  · exact absurd h (hc k)

theorem not_transfer_of_not_transferring {s : State} (h : ¬ transferring s) :
    s.fsm = .idle ∨ (∃ r, s.fsm = .halt r) ∨ ∃ k, s.fsm = .cfg k := by
  cases hf : s.fsm with
  | idle => exact .inl rfl
  | halt r => exact .inr (.inl ⟨r, rfl⟩)
  | cfg k => exact .inr (.inr ⟨k, rfl⟩)
  | _ => exact absurd (by simp [transferring, State.running, hf]) h

theorem constructed_of_leadsTo {s t : State} (ht : transferring s) (h : s.constructed = true) (hl : leadsTo s t) :
    t.constructed = true := by
  obtain ⟨i, u, ha, hu, rfl⟩ := hl
  have hframe := exec_port_frame (access_isPort ha) hu
  have hc : ∀ k, u.fsm ≠ .cfg k := by rw [hframe]; exact ht.2
  have hu' : u.constructed = true := by rw [hframe]; exact h
  rcases MovesOnly.advance hc with hm | hm <;> (rw [hm.frame]; exact hu')

/-- A command is taken with an empty trace (log 20), a transfer command on a constructed block only. -/
theorem ackOk_offer {c : HostCmd} {s t : State} (h : offer c s = .next t) : ackOk t = true ∧ constructedOk t := by
  have trivially {t : State} (ht : t.fsm = .idle ∨ (∃ r, t.fsm = .halt r) ∨ ∃ k, t.fsm = .cfg k) :
      ackOk t = true ∧ constructedOk t := ⟨ackOk_of_not_transfer ht, constructedOk_of_not_transfer ht⟩
  rcases offer_cases h with ⟨-, -, rfl⟩ | ⟨i, -, hi, hx⟩
  · exact trivially (.inr (.inl ⟨_, rfl⟩))
  · rcases exec_command_cases hi hx with ⟨hf, hcon, hcmd⟩ | ⟨-, -, _, _, _, -, -, -, rfl⟩ | ⟨-, -, rfl⟩
    · have hnil : notNacked (receive i c s) = true := by
        rw [receive_idle (by simpa using hf)]
        rfl
      rcases hcmd with ⟨_, _, -, rfl⟩ | ⟨_, _, -, rfl⟩ | ⟨_, _, _, -, rfl⟩ | ⟨_, -, -, -, rfl⟩
      · exact ⟨(ackOk_start_iff rfl).2 ⟨hnil, .inl rfl⟩, fun _ => hcon⟩
      · refine ⟨ackOk_enterRead hnil, fun _ => ?_⟩
        rw [(MovesOnly.enterRead _).frame]
        exact hcon
      · exact ⟨(ackOk_start_iff rfl).2 ⟨hnil, .inl rfl⟩, fun _ => hcon⟩
      · exact trivially (.inr (.inr ⟨_, rfl⟩))
    · exact trivially (.inr (.inr ⟨_, rfl⟩))
    · exact trivially (.inr (.inl ⟨_, rfl⟩))

/-- What the environment does to a register leaves `ACK` as it is (log 3). -/
theorem ackOk_environmentActs {r : Reg} {v : Word} {s : State} (h : ackOk s = true) :
    ackOk (environmentActs r v s) = true :=
  ackOk_mono (s := s) rfl rfl rfl rfl (ackBit_environmentActs r v s) id id (fun _ => id) h

/-- Settles O54: every row of the step table keeps the contract, and nothing outside writes `ACK` while a transfer
command runs. -/
theorem acknowledgeInvariant : Obligations.AcknowledgeInvariant := by
  unfold Obligations.AcknowledgeInvariant
  intro s t hq hlife hs ht
  have hcon : constructedOk s := fun htr => (lifecycleOk_iff htr.1 htr.2).1 hlife
  refine (step_preserves (P := fun s => seqOk s = true ∧ ackOk s = true ∧ constructedOk s)
    (C := fun _ => True)
    (inputs := fun _ _ _ h => h)
    (access := fun s i u h hr _ ha hu => ?access)
    (internal := fun s k h hk _ => ?internal)
    (lend := fun _ _ _ _ => trivial)
    (program := fun _ _ _ _ h => h)
    (command := fun _ _ _ _ _ ho => ⟨seqOk_offer ho, ackOk_offer ho⟩)
    (reset := fun _ _ _ => ⟨rfl, rfl, constructedOk_of_not_transfer (.inl rfl)⟩)
    (environment := fun _ _ _ h => ⟨h.1, ackOk_environmentActs h.2.1, h.2.2⟩)
    (foreign := fun s r v _ hc h => ?foreign)
    (write := fun _ _ _ _ h => h) ⟨hq, hs, hcon⟩ ht).2.1
  case access =>
    obtain ⟨hq, hack, hcon⟩ := h
    exact access_preserves hq hr ha hu (X := fun t => ackOk t = true ∧ constructedOk t)
      (fun ht _ hl => ⟨ackOk_of_leadsTo hq ht hack hl, fun _ => constructed_of_leadsTo ht (hcon ht) hl⟩)
      fun _ _ _ hk =>
        have hend := (afterCfg_fsm hk).imp_right .inr
        ⟨ackOk_of_not_transfer hend, constructedOk_of_not_transfer hend⟩
  case internal =>
    obtain ⟨hq, -, -⟩ := h
    exact ⟨seqOk_cfgInternal hq hk, ackOk_of_not_transfer (.inr (cfgInternal_fsm hk)),
      constructedOk_of_not_transfer (.inr (cfgInternal_fsm hk))⟩
  case foreign =>
    obtain ⟨hq, -, hcon⟩ := h
    exact ⟨hq, ackOk_of_not_transfer (not_transfer_of_not_transferring fun htr => by simp [hcon htr] at hc), hcon⟩

end Sys2Proof.Machine
end

section
/-! PROOF. Runs without a fault (41_bus_sequencer.md R150 to R152). `Does` says what the accesses of a stretch of a run
are, `At` where the block stands and what the environment will answer, `Keeps` and `Holds` what the stretch leaves as it
was. There is one lemma a row or poll; stretches are put together by `Does.trans` and `Holds.trans`. -/

namespace Sys2Proof.Machine

/-! ### The accesses of a stretch -/

/-- The bytes an instruction writes to `DATA`. -/
def bytesSent : Instr → List Byte
  | .pWrData b => [b]
  | _ => []

theorem bytesIn_of_encode {i : Instr} {r : Record} (h : encode i = .record r) (v : Option Word) :
    bytesIn [.port r v] = bytesSent i := by
  simp only [bytesIn, List.reverse_singleton, List.filterMap_cons, byteWritten, decodeRecord_encode h]
  cases i <;> rfl

theorem bytesIn_append (es es' : List Event) : bytesIn (es' ++ es) = bytesIn es ++ bytesIn es' := by
  simp [bytesIn]

/-- From `s` the block makes the `n` accesses `es` (newest first) and then stands at `t`; they write the bytes `bs` to
`DATA`, read `DATA` `d` times and request STOP `p` times. -/
structure Makes (n : Nat) (bs : List Byte) (d p : Nat) (es : List Event) (s t : State) : Prop where
  run : run n s = .next t
  trace : t.trace = es ++ s.trace
  length : es.length = n
  ports : allPort es = true
  bytes : bytesIn es = bs
  drains : accessesIn isDataRead es = d
  stops : accessesIn isStopRequest es = p

theorem Makes.trans {n n' d d' p p' : Nat} {bs bs' : List Byte} {es es' : List Event} {s t u : State}
    (h : Makes n bs d p es s t) (h' : Makes n' bs' d' p' es' t u) :
    Makes (n + n') (bs ++ bs') (d + d') (p + p') (es' ++ es) s u where
  run := (run_add h.run).trans h'.run
  trace := by rw [h'.trace, h.trace, List.append_assoc]
  length := by rw [List.length_append, h.length, h'.length, Nat.add_comm]
  ports := by
    have hall : allPort (es' ++ es) = (allPort es' && allPort es) := List.all_append
    rw [hall, h.ports, h'.ports]
    rfl
  bytes := by rw [bytesIn_append, h.bytes, h'.bytes]
  drains := by rw [accessesIn, List.countP_append, Nat.add_comm]; exact congrArg₂ (· + ·) h.drains h'.drains
  stops := by rw [accessesIn, List.countP_append, Nat.add_comm]; exact congrArg₂ (· + ·) h.stops h'.stops

/-- One step that leaves one access in the trace. -/
theorem Makes.one {i : Instr} {r : Record} {v : Option Word} {bs : List Byte} {d p : Nat} {s t : State}
    (hi : encode i = .record r) (hstep : step s = .next t) (htrace : t.trace = .port r v :: s.trace)
    (hb : bytesSent i = bs := by rfl) (hd : (isDataRead i).toNat = d := by rfl)
    (hp : (isStopRequest i).toNat = p := by rfl) : Makes 1 bs d p [.port r v] s t where
  run := run_succ 0 hstep
  trace := htrace
  length := rfl
  ports := by simp [allPort, isAccess_of_encode hi]
  bytes := (bytesIn_of_encode hi v).trans hb
  drains := by rw [← hd, accessesIn, List.countP_singleton, isAccess_of_encode hi]; cases isDataRead i <;> rfl
  stops := by rw [← hp, accessesIn, List.countP_singleton, isAccess_of_encode hi]; cases isStopRequest i <;> rfl

theorem Makes.cast {n m d e p q : Nat} {bs cs : List Byte} {es : List Event} {s t : State}
    (h : Makes n bs d p es s t) (hm : n = m := by omega) (hcs : bs = cs := by simp) (he : d = e := by omega)
    (hq : p = q := by omega) : Makes m cs e q es s t := by
  subst hm hcs he hq
  exact h

/-- The same of some accesses. -/
def Does (n : Nat) (bs : List Byte) (d p : Nat) (s t : State) : Prop := ∃ es, Makes n bs d p es s t

theorem Makes.does {n d p : Nat} {bs : List Byte} {es : List Event} {s t : State} (h : Makes n bs d p es s t) :
    Does n bs d p s t := ⟨es, h⟩

theorem Does.trans {n n' d d' p p' : Nat} {bs bs' : List Byte} {s t u : State} (h : Does n bs d p s t)
    (h' : Does n' bs' d' p' t u) : Does (n + n') (bs ++ bs') (d + d') (p + p') s u := by
  obtain ⟨es, h⟩ := h
  obtain ⟨es', h'⟩ := h'
  exact ⟨_, h.trans h'⟩

theorem Does.cast {n m d e p q : Nat} {bs cs : List Byte} {s t : State} (h : Does n bs d p s t)
    (hm : n = m := by omega) (hcs : bs = cs := by simp) (he : d = e := by omega) (hq : p = q := by omega) :
    Does m cs e q s t := by
  obtain ⟨es, h⟩ := h
  exact ⟨es, h.cast hm hcs he hq⟩

/-! ### What a stretch leaves as it was -/

/-- Only the sequencer's place, the snapshot, the result, the peripheral, `RXBUF`, the environment and the trace differ,
and of the peripheral neither `PE` nor a clock register. -/
structure Keeps (s t : State) : Prop where
  frame : t = { s with
    fsm := t.fsm, stage := t.stage, phase := t.phase, idx := t.idx, snap := t.snap, rdata := t.rdata
    result := t.result, per := t.per, host := { s.host with rxbuf := t.host.rxbuf }, env := t.env, trace := t.trace }
  pe : hasBit t.per.ctrl1 Bit.pe = hasBit s.per.ctrl1 Bit.pe
  ctrl2 : t.per.ctrl2 = s.per.ctrl2
  ccr : t.per.ccr = s.per.ccr
  trise : t.per.trise = s.per.trise

/-- Nor do `ACK`, the phase and the buffers. -/
structure Holds (s t : State) : Prop extends Keeps s t where
  phase : t.phase = s.phase
  ack : ackBit t = ackBit s
  host : t.host = s.host

namespace Keeps
variable {s t u : State}

theorem trans (h : Keeps s t) (h' : Keeps t u) : Keeps s u where
  frame := by
    have hu := h'.frame
    rw [h.frame] at hu
    exact hu
  pe := h'.pe.trans h.pe
  ctrl2 := h'.ctrl2.trans h.ctrl2
  ccr := h'.ccr.trans h.ccr
  trise := h'.trise.trans h.trise

theorem op (h : Keeps s t) : t.op = s.op := by rw [h.frame]
theorem addr7 (h : Keeps s t) : t.addr7 = s.addr7 := by rw [h.frame]
theorem wlen (h : Keeps s t) : t.wlen = s.wlen := by rw [h.frame]
theorem rlen (h : Keeps s t) : t.rlen = s.rlen := by rw [h.frame]
theorem txbuf (h : Keeps s t) : t.host.txbuf = s.host.txbuf := by rw [h.frame]
theorem timings (h : Keeps s t) : t.timings = s.timings := by rw [h.frame]
theorem config (h : Keeps s t) : t.config = s.config := by rw [h.frame]
theorem constructed (h : Keeps s t) : t.constructed = s.constructed := by rw [h.frame]
theorem pclkHz (h : Keeps s t) : t.pclkHz = s.pclkHz := by rw [h.frame]

end Keeps

namespace Holds
variable {s t u : State}

theorem trans (h : Holds s t) (h' : Holds t u) : Holds s u where
  toKeeps := h.toKeeps.trans h'.toKeeps
  phase := h'.phase.trans h.phase
  ack := h'.ack.trans h.ack
  host := h'.host.trans h.host

theorem goPoll (f : Fsm) (s : State) : Holds s (goPoll f s) := ⟨⟨rfl, rfl, rfl, rfl, rfl⟩, rfl, rfl, rfl⟩

theorem goStage (g : Stage) (s : State) : Holds s (goStage g s) := ⟨⟨rfl, rfl, rfl, rfl, rfl⟩, rfl, rfl, rfl⟩

theorem setIdx (n : Nat) (s : State) : Holds s { s with idx := n } := ⟨⟨rfl, rfl, rfl, rfl, rfl⟩, rfl, rfl, rfl⟩

theorem complete (r : Result) (s : State) : Holds s (complete r s) := ⟨⟨rfl, rfl, rfl, rfl, rfl⟩, rfl, rfl, rfl⟩

theorem readStat1 (s : State) : Holds s (pRead .stat1 s) := ⟨⟨rfl, rfl, rfl, rfl, rfl⟩, rfl, rfl, rfl⟩

theorem readStat2 (s : State) : Holds s (pRead .stat2 s) := ⟨⟨rfl, rfl, rfl, rfl, rfl⟩, rfl, rfl, rfl⟩

theorem readData (s : State) : Holds s (pRead .data s) := ⟨⟨rfl, rfl, rfl, rfl, rfl⟩, rfl, rfl, rfl⟩

theorem readCtrl1 (s : State) : Holds s (pRead .ctrl1 s) :=
  ⟨⟨rfl, by simp [Periph.afterRead, Periph.set, readValue_ctrl1, hasBit_ctrl1Answer, Bit.pe], rfl, rfl, rfl⟩, rfl,
    ackBit_pRead .ctrl1 s, rfl⟩

theorem write (v : Word) (s : State) : Holds s (pWrite v s) := ⟨⟨rfl, rfl, rfl, rfl, rfl⟩, rfl, rfl, rfl⟩

theorem setStart (s : State) : Holds s (pUpdate .ctrl1 0x0100 0x0100 s) :=
  ⟨⟨rfl, (bitsSet_setStart s.per.ctrl1).2 Bit.pe (by simp [Bit.pe]), rfl, rfl, rfl⟩, rfl, ackBit_setStart s, rfl⟩

theorem setStop (s : State) : Holds s (pUpdate .ctrl1 0x0200 0x0200 s) :=
  ⟨⟨rfl, (bitsSet_setStop s.per.ctrl1).2 Bit.pe (by simp [Bit.pe]), rfl, rfl, rfl⟩, rfl, ackBit_setStop s, rfl⟩

end Holds

theorem Keeps.setStartAck (s : State) : Keeps s (pUpdate .ctrl1 0x0500 0x0500 s) :=
  ⟨rfl, (bitsSet_setStartAck s.per.ctrl1).2 Bit.pe (by simp [Bit.pe]), rfl, rfl, rfl⟩

theorem Keeps.nackStop (s : State) : Keeps s (pUpdate .ctrl1 0x0600 0x0200 s) :=
  ⟨rfl, (bitsSet_nackStop s.per.ctrl1).2 Bit.pe (by simp [Bit.pe]), rfl, rfl, rfl⟩

theorem Keeps.storeReceived (s : State) : Keeps s (storeReceived s) := ⟨rfl, rfl, rfl, rfl, rfl⟩

theorem Keeps.startPhase (p : Phase) (s : State) : Keeps s (startPhase p s) := ⟨rfl, rfl, rfl, rfl, rfl⟩

/-! ### The environment's answers -/

/-- The bits of `STAT1` a fault-free run does not see: the error flags and `BERR`. -/
def faultBits : List Nat := [Bit.timeout, Bit.pecerr, Bit.ovr, Bit.af, Bit.arlo, Bit.berr]

theorem firstError_eq_none_iff {v : Word} : firstError v = none ↔ hasBit v Bit.timeout = false ∧
    hasBit v Bit.pecerr = false ∧ hasBit v Bit.ovr = false ∧ hasBit v Bit.af = false ∧ hasBit v Bit.arlo = false := by
  unfold firstError
  split_ifs <;> simp_all

theorem quiet_iff {v : Word} : (calm v && !hasBit v Bit.berr) = true ↔ ∀ n ∈ faultBits, hasBit v n = false := by
  simp [calm, firstError_eq_none_iff, faultBits, and_assoc]

theorem cleanStatus_iff {s : State} : cleanStatus s = true ↔ ∀ n ∈ faultBits, hasBit s.per.stat1 n = false := quiet_iff

/-- What clears bits of `STAT1`, or leaves it, keeps it clean. -/
theorem cleanStatus_mono {s t : State} (h : ∀ n, hasBit t.per.stat1 n = true → hasBit s.per.stat1 n = true)
    (hs : cleanStatus s = true) : cleanStatus t = true := by
  rw [cleanStatus_iff] at hs ⊢
  exact fun n hn => Bool.eq_false_of_not_eq_true fun hset => by simpa [hs n hn] using h n hset

theorem metBy_answer {w : Want} {ws : List Want} {s : State} (h : metBy (w :: ws) s.env.answers = true) :
    w.met s.env.answer = true ∧ metBy ws s.env.advance.answers = true := by
  unfold Env.answer Env.advance
  cases ha : s.env.answers with
  | nil => simp [ha, metBy] at h
  | cons a as => simpa [ha, metBy] using h

/-- The block stands at sub-step `g` of state `f` with nothing to happen outside, `STAT1` is clean, and the environment
will answer what `ws` asks for. -/
structure At (f : Fsm) (g : Stage) (ws : List Want) (s : State) : Prop where
  inputs : s.host.inputs = []
  fsm : s.fsm = f
  stage : s.stage = g
  clean : cleanStatus s = true
  answers : metBy ws s.env.answers = true

namespace At
variable {f : Fsm} {g : Stage} {w : Want} {ws : List Want} {s : State}

theorem goPoll (f' : Fsm) (h : At f g ws s) : At f' .monitor ws (goPoll f' s) :=
  ⟨h.inputs, rfl, rfl, h.clean, h.answers⟩

theorem goStage (g' : Stage) (h : At f g ws s) : At f g' ws (goStage g' s) := ⟨h.inputs, h.fsm, rfl, h.clean, h.answers⟩

theorem setIdx (n : Nat) (h : At f g ws s) : At f g ws { s with idx := n } :=
  ⟨h.inputs, h.fsm, h.stage, h.clean, h.answers⟩

theorem write (v : Word) (h : At f g ws s) : At f g ws (pWrite v s) := ⟨h.inputs, h.fsm, h.stage, h.clean, h.answers⟩

theorem update (m v : Word) (h : At f g ws s) : At f g ws (pUpdate .ctrl1 m v s) :=
  ⟨h.inputs, h.fsm, h.stage, h.clean, h.answers⟩

/-- A status read finds a word without a fault, and the flag awaited. -/
theorem readStat1 (h : At f g (w :: ws) s) (hw : w = .noError ∨ ∃ n, w = .flag n) :
    At f g ws (pRead .stat1 s) ∧ ∀ n, w = .flag n → hasBit (s.readValue .stat1) n = true := by
  obtain ⟨hmet, hrest⟩ := metBy_answer h.answers
  have hquiet : (calm s.env.answer && !hasBit s.env.answer Bit.berr) = true := by
    rcases hw with rfl | ⟨n, rfl⟩ <;> simp_all [Want.met]
  have hclean : cleanStatus (pRead .stat1 s) = true := by
    rw [cleanStatus_iff]
    intro n hn
    have hvalue : (pRead .stat1 s).per.stat1 = stat1Answer s.per.stat1 s.env.answer := rfl
    rw [hvalue, hasBit_stat1Answer, quiet_iff.1 hquiet n hn, cleanStatus_iff.1 h.clean n hn]
    rfl
  refine ⟨⟨h.inputs, h.fsm, h.stage, hclean, hrest⟩, ?_⟩
  rintro n rfl
  have hn : hasBit s.env.answer n = true := by simp_all [Want.met]
  rw [readValue_stat1, hasBit_stat1Answer, hn, Bool.true_or]

theorem readStat2 (h : At f g (w :: ws) s) : At f g ws (pRead .stat2 s) ∧ w.met (s.readValue .stat2) = true := by
  obtain ⟨hmet, hrest⟩ := metBy_answer h.answers
  refine ⟨⟨h.inputs, h.fsm, h.stage, cleanStatus_mono (fun n hn => ?_) h.clean, hrest⟩, hmet⟩
  simp only [pRead_per, Periph.afterRead] at hn
  split at hn
  · simp_all [hasBit_clearBit]
  · exact hn

theorem readData (h : At f g (w :: ws) s) : At f g ws (pRead .data s) ∧ w.met (s.readValue .data) = true := by
  obtain ⟨hmet, hrest⟩ := metBy_answer h.answers
  refine ⟨⟨h.inputs, h.fsm, h.stage, cleanStatus_mono (fun n hn => ?_) h.clean, hrest⟩, hmet⟩
  simp only [pRead_per, Periph.afterRead, hasBit_clearBit, Bool.and_eq_true] at hn
  exact hn.1

/-- `CTRL1` is then read with `STOP` clear. -/
theorem readCtrl1 (h : At f g (.stopped :: ws) s) :
    At f g ws (pRead .ctrl1 s) ∧ hasBit (s.readValue .ctrl1) Bit.stop = false := by
  obtain ⟨hmet, hrest⟩ := metBy_answer h.answers
  refine ⟨⟨h.inputs, h.fsm, h.stage, h.clean, hrest⟩, ?_⟩
  have hstop : hasBit s.env.answer Bit.stop = false := by simpa [Want.met] using hmet
  rw [readValue_ctrl1, hasBit_ctrl1Answer, hstop]
  simp [Bit.stop]

end At

/-! ### One step -/

section Steps
variable {f : Fsm} {g : Stage} {ws : List Want} {s : State}

/-- The access `i` of a row. -/
theorem makes_row {i : Instr} {r : Record} {v : Option Word} {bs : List Byte} {d p : Nat} {t : State}
    (h : At f g ws s) (hr : s.running = true) (hrow : hasRow s = true) (hl : leadsTo s t) (hi : encode i = .record r)
    (ht : t.trace = .port r v :: s.trace) (hb : bytesSent i = bs := by rfl) (hd : (isDataRead i).toNat = d := by rfl)
    (hp : (isStopRequest i).toNat = p := by rfl) : Makes 1 bs d p [.port r v] s t :=
  .one hi (step_of_leadsTo h.inputs hr hrow hl) ht hb hd hp

theorem encode_pWrData (b : Byte) : encode (.pWrData b) = .record (packP 1 0x10 0xFFFF (dataWord b)) := by
  have hword : (0#8 ++ b : Word) = dataWord b :=
    BitVec.eq_of_toNat_eq ((BitVec.toNat_append 0#8 b).trans (by simp [toNat_dataWord]))
  exact congrArg (fun w => Image.record (packP 1 0x10 0xFFFF w)) hword

/-- The state after a flag poll has stored the word it read. -/
def polled (s : State) : State := storeSnap (pRead .stat1 s)

theorem holds_polled (s : State) : Holds s (polled s) := ⟨⟨rfl, rfl, rfl, rfl, rfl⟩, rfl, rfl, rfl⟩

/-- A monitor call in a fault-free run is one access. -/
theorem step_quiet (h : At f .monitor ws s) (hq : cleanStatus (pRead .stat1 s) = true) (hrow : pollRow s = true) :
    step s = .next (afterMonitor (pRead .stat1 s)) := by
  have hq' : (calm (s.readValue .stat1) && !hasBit (s.readValue .stat1) Bit.berr) = true := hq
  rw [Bool.and_eq_true, Bool.not_eq_true'] at hq'
  exact step_monitor_calm h.inputs hrow h.stage hq'.1 hq'.2

/-- A flag poll in a fault-free run is one access. -/
theorem does_flagPoll {n : Nat} {go : State → State} (h : At f .monitor (.flag n :: ws) s) (hrow : pollRow s = true)
    (hm : ∀ {u : State}, u.fsm = f → afterMonitor u = pollFlag n go u) (hgo : ∀ u, (go u).trace = u.trace) :
    Does 1 [] 0 0 s (go (polled s)) ∧ At f .monitor ws (polled s) := by
  obtain ⟨hat, hflag⟩ := h.readStat1 (.inr ⟨n, rfl⟩)
  have hstep : step s = .next (go (polled s)) := by
    rw [step_quiet h hat.clean hrow, hm (by exact h.fsm), pollFlag_eq (by exact h.stage), if_pos (by exact hflag n rfl)]
    rfl
  exact ⟨(Makes.one (i := .pRdStat1) (v := some (s.readValue .stat1)) rfl hstep (hgo (polled s))).does,
    ⟨hat.inputs, hat.fsm, hat.stage, hat.clean, hat.answers⟩⟩

theorem At.polls_row (h : At f .monitor ws s) (hf : f.polls = true) (hb : f ≠ .btf) (hx : f ≠ .rxne) :
    pollRow s = true := by
  unfold pollRow
  rw [h.fsm]
  split
  · exact absurd rfl hb
  · exact absurd rfl hx
  · exact hf

/-! ### From the START request to the acknowledge of the address -/

theorem makes_request_wr (h : At .start .request ws s) (hp : s.phase = .wr) :
    ∃ t, Makes 1 [] 0 0 [.port (packP 2 0x00 0x0100 0x0100) none] s t ∧ At .start .monitor ws t ∧ Holds s t :=
  ⟨_, makes_row (i := .pSetStart) h (by simp [State.running, h.fsm]) (by simp [hasRow, h.fsm, h.stage])
    (leadsTo_request_wr h.fsm h.stage hp) rfl rfl, (h.update 0x0100 0x0100).goPoll .start,
    (Holds.setStart s).trans (.goPoll ..)⟩

theorem makes_request_rd (h : At .start .request ws s) (hp : s.phase = .rd) :
    ∃ t, Makes 1 [] 0 0 [.port (packP 2 0x00 0x0500 0x0500) none] s t ∧ At .start .monitor ws t ∧
      Keeps s t ∧ t.phase = .rd ∧ t.host = s.host :=
  ⟨_, makes_row (i := .pSetStartAck) h (by simp [State.running, h.fsm]) (by simp [hasRow, h.fsm, h.stage])
    (leadsTo_request_rd h.fsm h.stage hp) rfl rfl, (h.update 0x0500 0x0500).goPoll .start,
    (Keeps.setStartAck s).trans (Holds.goPoll ..).toKeeps, hp, rfl⟩

theorem does_startPoll (h : At .start .monitor (.flag Bit.sb :: ws) s) :
    ∃ t, Does 1 [] 0 0 s t ∧ At .master .monitor ws t ∧ Holds s t := by
  obtain ⟨hdoes, hat⟩ := does_flagPoll h (h.polls_row rfl (by simp) (by simp)) afterMonitor_start fun _ => rfl
  exact ⟨_, hdoes, hat.goPoll .master, (holds_polled s).trans (.goPoll ..)⟩

/-- The monitor call of the master and the STOP poll. -/
theorem does_call (h : At f .monitor (.noError :: ws) s) (hf : f = .master ∨ f = .stop) :
    ∃ t, Does 1 [] 0 0 s t ∧ At f .second ws t ∧ Holds s t := by
  obtain ⟨hat, -⟩ := h.readStat1 (.inl rfl)
  have hrow : pollRow s = true := by rcases hf with rfl | rfl <;> exact h.polls_row rfl (by simp) (by simp)
  have hstep := step_quiet h hat.clean hrow
  rw [afterMonitor_second (s := pRead .stat1 s) (by simpa [h.fsm] using hf)] at hstep
  exact ⟨_, (Makes.one (i := .pRdStat1) rfl hstep rfl).does, hat.goStage .second,
    (Holds.readStat1 s).trans (.goStage ..)⟩

theorem does_masterPoll (h : At .master .monitor (.noError :: .master :: ws) s) :
    ∃ t, Does 2 [] 0 0 s t ∧ At .master .leave ws t ∧ Holds s t := by
  obtain ⟨u, hcall, hu, hhold⟩ := does_call h (.inl rfl)
  obtain ⟨hat, hmet⟩ := hu.readStat2
  have hrow : Makes 1 [] 0 0 _ u _ := makes_row (i := .pRdStat2)
    (v := some (u.readValue .stat2)) hu (by simp [State.running, hu.fsm])
    (by simp [hasRow, hu.fsm, hu.stage]) (leadsTo_second_master hu.fsm hu.stage) rfl
    (by rw [(MovesOnly.afterSecond _).frame]; rfl)
  rw [afterSecond_master (s := pRead .stat2 u) hu.fsm, if_pos (by exact hmet)] at hrow
  exact ⟨_, (hcall.trans hrow.does).cast, hat.goStage .leave, hhold.trans ((Holds.readStat2 u).trans (.goStage ..))⟩

theorem does_address (h : At .master .leave ws s) :
    ∃ t, Does 1 [addrByte s.addr7 (phaseDir s.phase)] 0 0 s t ∧ At .addr .monitor ws t ∧ Holds s t :=
  ⟨_, (makes_row (i := .pWrData (addrByte s.addr7 (phaseDir s.phase))) h (by simp [State.running, h.fsm])
    (by simp [hasRow, h.fsm, h.stage]) (leadsTo_leave_master h.fsm h.stage) (encode_pWrData _) rfl).does,
    (h.write _).goPoll .addr, (Holds.write _ s).trans (.goPoll ..)⟩

theorem does_addrPoll (h : At .addr .monitor (.flag Bit.addr :: ws) s) :
    ∃ t, Does 1 [] 0 0 s t ∧ At .addrclr .leave ws t ∧ Holds s t := by
  obtain ⟨hdoes, hat⟩ := does_flagPoll h (h.polls_row rfl (by simp) (by simp)) afterMonitor_addr fun _ => rfl
  exact ⟨_, hdoes, (hat.goPoll .addrclr).goStage .leave, (holds_polled s).trans (.trans (.goPoll ..) (.goStage ..))⟩

/-- From the `SB` poll to the latch-clearing read (41_bus_sequencer.md R143, R144). -/
theorem does_addressPhase (h : At .start .monitor (wantsStart ++ ws) s) :
    ∃ t, Does 5 [addrByte s.addr7 (phaseDir s.phase)] 0 0 s t ∧ At .addrclr .leave (.any :: ws) t ∧ Holds s t := by
  obtain ⟨s₁, hstart, hat₁, hold₁⟩ := does_startPoll h
  obtain ⟨s₂, hmaster, hat₂, hold₂⟩ := does_masterPoll hat₁
  obtain ⟨s₃, haddress, hat₃, hold₃⟩ := does_address hat₂
  obtain ⟨s₄, haddr, hat₄, hold₄⟩ := does_addrPoll hat₃
  have hold := hold₁.trans hold₂
  rw [hold.addr7, hold.phase] at haddress
  exact ⟨s₄, (((hstart.trans hmaster).trans haddress).trans haddr).cast, hat₄, (hold.trans hold₃).trans hold₄⟩

/-- The latch-clearing read, and what follows it. -/
theorem does_latchClear {w : Want} (h : At .addrclr .leave (w :: ws) s) (hrow : latchRow s = true) :
    ∃ v, Does 1 [] 0 0 s (afterLatchClear v) ∧ At .addrclr .leave ws v ∧ Holds s v := by
  obtain ⟨hat, -⟩ := h.readStat2
  exact ⟨_, (makes_row (i := .pRdStat2) (v := some (s.readValue .stat2)) h (by simp [State.running, h.fsm])
    (by simp [hasRow, h.fsm, h.stage, hrow]) (leadsTo_leave_addrclr h.fsm h.stage) rfl
    (by rw [(MovesOnly.afterLatchClear _).frame]; rfl)).does, hat, Holds.readStat2 s⟩

/-! ### The STOP poll -/

theorem does_stopPoll (h : At .stop .monitor wantsStop s) :
    ∃ t, Does 2 [] 0 0 s t ∧ t.fsm = .idle ∧ t.result = some .ok ∧ hasBit t.per.ctrl1 Bit.stop = false ∧
      Holds s t := by
  obtain ⟨u, hcall, hu, hhold⟩ := does_call h (.inr rfl)
  obtain ⟨-, hstop⟩ := hu.readCtrl1
  have hrow : Makes 1 [] 0 0 _ u _ := makes_row (i := .pRdCtrl1)
    (v := some (u.readValue .ctrl1)) hu (by simp [State.running, hu.fsm])
    (by simp [hasRow, hu.fsm, hu.stage]) (leadsTo_second_stop hu.fsm hu.stage) rfl
    (by rw [(MovesOnly.afterSecond _).frame]; rfl)
  rw [afterSecond_stop (s := pRead .ctrl1 u) hu.fsm, if_neg (by simp [hstop])] at hrow
  exact ⟨_, (hcall.trans hrow.does).cast, rfl, rfl, hstop, hhold.trans ((Holds.readCtrl1 u).trans (.complete ..))⟩

end Steps

end Sys2Proof.Machine
end

section
/-! PROOF. The write phase without a fault (41_bus_sequencer.md R145, R150, R152): 7 accesses up to the latch-clearing read
and 3 for each payload byte. What follows it, by command, is `afterPayload`. -/

namespace Sys2Proof.Machine

section WritePhase
variable {f : Fsm} {g : Stage} {ws : List Want} {s : State}

/-! ### The payload -/

theorem does_txePoll (h : At .txe .monitor (.flag Bit.txe :: ws) s) :
    ∃ t, Does 1 [] 0 0 s t ∧ At .txe .leave ws t ∧ Holds s t ∧ t.idx = s.idx := by
  obtain ⟨hdoes, hat⟩ := does_flagPoll h (h.polls_row rfl (by simp) (by simp)) afterMonitor_txe fun _ => rfl
  exact ⟨_, hdoes, hat.goStage .leave, (holds_polled s).trans (.goStage ..), rfl⟩

theorem does_payloadByte (h : At .txe .leave ws s) :
    ∃ t, Does 1 [s.host.txbuf.read s.idx] 0 0 s t ∧ At .btf .monitor ws t ∧ Holds s t ∧ t.idx = s.idx :=
  ⟨_, (makes_row (i := .pWrData (s.host.txbuf.read s.idx)) h (by simp [State.running, h.fsm])
    (by simp [hasRow, h.fsm, h.stage]) (leadsTo_leave_txe h.fsm h.stage) (encode_pWrData _) rfl).does,
    (h.write _).goPoll .btf, (Holds.write _ s).trans (.goPoll ..), rfl⟩

theorem does_btfPoll (h : At .btf .monitor (.flag Bit.btf :: ws) s) (hrow : btfRow s = true) :
    ∃ v, Does 1 [] 0 0 s (afterBtf v) ∧ At .btf .monitor ws v ∧ Holds s v ∧ v.idx = s.idx := by
  have hgo (u : State) : (afterBtf u).trace = u.trace := by rw [(MovesOnly.afterBtf u).frame]
  obtain ⟨hdoes, hat⟩ := does_flagPoll h (by simpa [pollRow, h.fsm] using hrow) afterMonitor_btf hgo
  exact ⟨_, hdoes, hat, holds_polled s, rfl⟩

/-- One payload byte: 3 accesses (41_bus_sequencer.md R145). -/
theorem does_byteSent (h : At .txe .monitor (.flag Bit.txe :: .flag Bit.btf :: ws) s) (ho : s.op.writes = true)
    (hi : s.idx < s.wlen) :
    ∃ v, Does 3 [s.host.txbuf.read s.idx] 0 0 s (afterBtf v) ∧ At .btf .monitor ws v ∧ Holds s v ∧ v.idx = s.idx := by
  obtain ⟨s₁, htxe, hat₁, hold₁, hidx₁⟩ := does_txePoll h
  obtain ⟨s₂, hsent, hat₂, hold₂, hidx₂⟩ := does_payloadByte hat₁
  have hold := hold₁.trans hold₂
  have hidx := hidx₂.trans hidx₁
  have hrow : btfRow s₂ = true := by
    simp only [btfRow, hidx, hold.wlen, hold.op, ho, Bool.and_true, Bool.or_eq_true, decide_eq_true_eq]
    omega
  obtain ⟨v, hbtf, hat, hold₃, hidx₃⟩ := does_btfPoll hat₂ hrow
  rw [hold₁.host, hidx₁] at hsent
  exact ⟨v, ((htxe.trans hsent).trans hbtf).cast, hat, hold.trans hold₃, hidx₃.trans hidx⟩

/-- The payload from byte `IDX` on, `n + 1` bytes. -/
theorem does_payload (n : Nat) (h : At .txe .monitor (wantsPayload (n + 1) ++ ws) s) (ho : s.op.writes = true)
    (hi : s.idx + (n + 1) = s.wlen) :
    ∃ v, Does (3 * (n + 1)) (payload s.host.txbuf s.idx (n + 1)) 0 0 s (afterPayload .leave v) ∧
      At .btf .monitor ws v ∧ Holds s v ∧ v.idx + 1 = v.wlen := by
  induction n generalizing s with
  | zero =>
    obtain ⟨v, hbyte, hat, hold, hidx⟩ := does_byteSent h ho (by omega)
    have hlast : v.idx + 1 = v.wlen := by rw [hidx, hold.wlen, hi]
    rw [afterBtf_last hlast] at hbyte
    exact ⟨v, hbyte, hat, hold, hlast⟩
  | succ n ih =>
    obtain ⟨v, hbyte, hat, hold, hidx⟩ := does_byteSent h ho (by omega)
    have hwlen := hold.wlen
    rw [afterBtf_more (by omega)] at hbyte
    have hold' : Holds s (goPoll .txe { v with idx := v.idx + 1 }) := hold.trans (.trans (.setIdx ..) (.goPoll ..))
    obtain ⟨x, hrest, hatx, holdx, hlast⟩ :=
      ih ((hat.setIdx (v.idx + 1)).goPoll .txe) (by rw [hold'.op]; exact ho) (by simp; omega)
    rw [hold'.host] at hrest
    refine ⟨x, (hbyte.trans hrest).cast (by omega) ?_, hatx, hold'.trans holdx, hlast⟩
    simp [payload, hidx]

/-! ### The whole write phase -/

/-- The write phase is over: `afterPayload g` follows, and the block stands where `WRITE` requests STOP. -/
def payloadOver (g : Stage) (ws : List Want) (s : State) : Prop :=
  (At .addrclr .leave ws s ∧ g = .leaveCtrl) ∨ (At .btf .monitor ws s ∧ g = .leave ∧ s.idx + 1 = s.wlen)

/-- From the latch-clearing read of the write phase to its end. -/
theorem does_wholePayload (h : At .addrclr .leave (.any :: (wantsPayload s.wlen ++ ws)) s) (hp : s.phase = .wr)
    (ho : s.op.writes = true) :
    ∃ g v, Does (1 + 3 * s.wlen) (payload s.host.txbuf 0 s.wlen) 0 0 s (afterPayload g v) ∧ payloadOver g ws v ∧
      Holds s v := by
  obtain ⟨v, hlatch, hat, hold⟩ := does_latchClear h (by simp [latchRow, hp, ho])
  have hwr : v.phase = .wr := hold.phase.trans hp
  have hwlen := hold.wlen
  cases hw : s.wlen with
  | zero =>
    have hnone : afterLatchClear v = afterPayload .leaveCtrl v := by simp [afterLatchClear, hwr, hwlen, hw]
    rw [hnone] at hlatch
    rw [hw] at hat
    exact ⟨.leaveCtrl, v, hlatch, .inl ⟨hat, rfl⟩, hold⟩
  | succ n =>
    have hmore : afterLatchClear v = goPoll .txe { v with idx := 0 } := by simp [afterLatchClear, hwr, hwlen, hw]
    rw [hmore] at hlatch
    rw [hw] at hat
    have hold' : Holds s (goPoll .txe { v with idx := 0 }) := hold.trans (.trans (.setIdx ..) (.goPoll ..))
    obtain ⟨x, hsent, hatx, holdx, hlast⟩ :=
      does_payload n ((hat.setIdx 0).goPoll .txe) (by rw [hold'.op]; exact ho) (by simp; omega)
    rw [hold'.host] at hsent
    exact ⟨.leave, x, (hlatch.trans hsent).cast, .inr ⟨hatx, rfl, hlast⟩, hold'.trans holdx⟩

/-- The write phase, its START request first. -/
theorem makes_writePhase (h : At .start .request (wantsStart ++ (wantsPayload s.wlen ++ ws)) s) (hp : s.phase = .wr)
    (ho : s.op.writes = true) :
    ∃ g v es, Makes (7 + 3 * s.wlen) (addrByte s.addr7 false :: payload s.host.txbuf 0 s.wlen) 0 0 es s
        (afterPayload g v) ∧
      es.getLast? = some (.port (packP 2 0x00 0x0100 0x0100) none) ∧ payloadOver g ws v ∧ Holds s v := by
  obtain ⟨s₁, hrequest, hat₁, hold₁⟩ := makes_request_wr h hp
  obtain ⟨s₂, haddress, hat₂, hold₂⟩ := does_addressPhase hat₁
  have hold := hold₁.trans hold₂
  rw [← hold.wlen] at hat₂
  obtain ⟨g, v, hpayload, hover, hold₃⟩ :=
    does_wholePayload hat₂ (hold.phase.trans hp) (by rw [hold.op]; exact ho)
  rw [hold₁.phase, hp, hold₁.addr7] at haddress
  rw [hold.wlen, hold.host] at hpayload
  obtain ⟨es, hrest⟩ := haddress.trans hpayload
  exact ⟨g, v, _, (hrequest.trans hrest).cast (hcs := rfl), by simp, hover, hold.trans hold₃⟩

theorem payloadOver_at (h : payloadOver g ws s) : ∃ f g', At f g' ws s := by
  rcases h with ⟨hat, -⟩ | ⟨hat, -⟩ <;> exact ⟨_, _, hat⟩

/-- `WRITE` requests STOP (41_bus_sequencer.md R150). -/
theorem does_writeStop (h : payloadOver g ws s) (hp : s.phase = .wr) (ho : s.op = .write) :
    ∃ t, Does 1 [] 0 1 (afterPayload g s) t ∧ At .stop .monitor ws t ∧ Holds s t := by
  rw [afterPayload_write ho]
  have hold : Holds s (Machine.goPoll .stop (pUpdate .ctrl1 0x0200 0x0200 (Machine.goStage g s))) :=
    (Holds.goStage g s).trans ((Holds.setStop _).trans (.goPoll ..))
  rcases h with ⟨hat, rfl⟩ | ⟨hat, rfl, hlast⟩
  · have hctrl := hat.goStage .leaveCtrl
    exact ⟨_, (makes_row (i := .pSetStop) hctrl (by simp [State.running, hat.fsm]) (by simp [hasRow, hat.fsm])
      (leadsTo_leaveCtrl_addrclr_wr hctrl.fsm rfl hp) rfl rfl).does, (hctrl.update ..).goPoll .stop, hold⟩
  · have hleave := hat.goStage .leave
    have hrow : btfRow (goStage .leave s) = true := by simp [btfRow, hlast, ho, Op.writes]
    exact ⟨_, (makes_row (i := .pSetStop) hleave (by simp [State.running, hat.fsm]) (by simp [hasRow, hat.fsm, hrow])
      (leadsTo_leave_btf hleave.fsm rfl) rfl rfl).does, (hleave.update ..).goPoll .stop, hold⟩

end WritePhase

/-! ### The commands -/

/-- A transfer command that begins with a write phase stands at its START request. -/
theorem at_startPhase {op : Op} {a : BitVec 7} {w n : Nat} {p : Phase} {ws : List Want} {s : State}
    (hin : s.host.inputs = []) (hclean : cleanStatus s = true) (hmet : metBy ws s.env.answers = true) :
    At .start .request ws (startPhase p (latchTransfer op a w n s)) := ⟨hin, rfl, rfl, hclean, hmet⟩

/-- Settles O42: the write phase, the STOP request and the STOP poll, 7 + 3·WLEN + 1 + 2 accesses. -/
theorem faultFreeWrite : Obligations.FaultFreeWrite := by
  unfold Obligations.FaultFreeWrite
  intro s a w hf hc hin hclean hmet
  rw [wantsWrite, List.append_assoc] at hmet
  obtain ⟨g, v, es, hwrite, -, hover, hold₁⟩ := makes_writePhase (at_startPhase (op := .write) (a := a) (w := w) (n := 0)
    (p := .wr) hin hclean hmet) rfl rfl
  obtain ⟨x, hstop, hat, hold₂⟩ := does_writeStop hover hold₁.phase hold₁.op
  obtain ⟨u, hpoll, hidle, hok, hbit, hold₃⟩ := does_stopPoll hat
  have hold := (hold₁.trans hold₂).trans hold₃
  obtain ⟨new, hall⟩ := ((hwrite.does.trans hstop).trans hpoll).cast (m := 10 + 3 * w)
    (cs := addrByte a false :: payload s.host.txbuf 0 w) (e := 0) (q := 1) (hm := by simp; omega)
  exact ⟨_, u, new, exec_write hf hc a w, hall.run, hidle, hok, hall.trace, hall.length, hall.ports, hall.bytes,
    hall.drains, hall.stops, hold.pe, hold.ack, hbit, hold.ctrl2, hold.ccr, hold.trise, hold.host, hold.timings,
    hold.config, hold.constructed.trans hc, hold.pclkHz⟩

/-- Settles O45: `READ` ends before its first access, `WRRD` after its write phase. -/
theorem emptyReadBuffer : Obligations.EmptyReadBuffer := by
  unfold Obligations.EmptyReadBuffer
  refine ⟨fun s a hf hc => ⟨_, exec_read hf hc a 0, rfl, rfl, rfl, rfl⟩, fun s a w hf hc hin hclean hmet => ?_⟩
  obtain ⟨g, v, es, hall, -, -, hold⟩ := makes_writePhase (ws := []) (at_startPhase (op := .wrrd) (a := a) (w := w)
    (n := 0) (p := .wr) hin hclean (by simpa using hmet)) rfl rfl
  rw [afterPayload_wrrd hold.op, enterRead_of_zero hold.rlen] at hall
  exact ⟨_, _, es, exec_wrrd hf hc a w 0, hall.run, rfl, rfl, hall.trace, hall.length, hall.ports, hall.bytes,
    hall.drains, hall.stops, hold.host⟩

end Sys2Proof.Machine
end

section
/-! PROOF. The read phase without a fault (41_bus_sequencer.md R146, R149, R151, R152): 2 accesses a byte, and one `r9`
before the last byte. -/

namespace Sys2Proof.Machine

section ReadPhase
variable {f : Fsm} {g : Stage} {b : Byte} {bs : List Byte} {ws : List Want} {s : State}

/-! ### The bytes received -/

/-- From `s` to `t` the bytes `bs` were stored in `RXBUF` from index `i` on, and no other byte of a buffer was
changed. -/
structure Receives (i : Nat) (bs : List Byte) (s t : State) : Prop extends Keeps s t where
  wf : t.host.rxbuf.wf = true
  bytes : payload t.host.rxbuf i bs.length = bs
  others : ∀ k, k < i ∨ i + bs.length ≤ k → t.host.rxbuf.read k = s.host.rxbuf.read k

namespace Receives
variable {i : Nat} {t u : State}

theorem storeReceived (hwf : s.host.rxbuf.wf = true) (hb : dataByte s.rdata = b) :
    Receives s.idx [b] s (storeReceived s) where
  toKeeps := Keeps.storeReceived s
  wf := Memory.wf_write hwf _ _
  bytes := by
    rw [← hb]
    exact congrArg (fun x => [x]) (Memory.read_write_same hwf s.idx _)
  others k hk := Memory.read_write_other _ (by simp at hk; omega)

theorem after (hk : Keeps s t) (hh : t.host = s.host) (h : Receives i bs t u) : Receives i bs s u where
  toKeeps := hk.trans h.toKeeps
  wf := h.wf
  bytes := h.bytes
  others k hi := by rw [h.others k hi, hh]

theorem before (h : Receives i bs s t) (hk : Keeps t u) (hh : u.host = t.host) : Receives i bs s u where
  toKeeps := h.toKeeps.trans hk
  wf := by rw [hh]; exact h.wf
  bytes := by rw [hh]; exact h.bytes
  others k hi := by rw [hh, h.others k hi]

/-- One byte, and then the others. -/
theorem cons (h : Receives i [b] s t) (h' : Receives (i + 1) bs t u) : Receives i (b :: bs) s u where
  toKeeps := h.toKeeps.trans h'.toKeeps
  wf := h'.wf
  bytes := by
    have hfirst : u.host.rxbuf.read i = b := by
      rw [h'.others i (.inl (by omega))]
      simpa [payload] using h.bytes
    simp [payload, hfirst, h'.bytes]
  others k hk := by
    simp only [List.length_cons] at hk
    rw [h'.others k (by omega), h.others k (by simp; omega)]

end Receives

theorem At.storeReceived (h : At f g ws s) : At f g ws (storeReceived s) :=
  ⟨h.inputs, h.fsm, h.stage, h.clean, h.answers⟩

/-! ### One byte -/

theorem does_rxnePoll (h : At .rxne .monitor (.flag Bit.rxne :: ws) s) (hi : s.idx < s.rlen) :
    ∃ t, Does 1 [] 0 0 s t ∧ At .rxne .leave ws t ∧ Holds s t ∧ t.idx = s.idx := by
  obtain ⟨hdoes, hat⟩ := does_flagPoll h (by simp [pollRow, h.fsm, drainRow, hi]) afterMonitor_rxne fun _ => rfl
  exact ⟨_, hdoes, hat.goStage .leave, (holds_polled s).trans (.goStage ..), rfl⟩

theorem does_drain (h : At .rxne .leave (.byte b :: ws) s) (hi : s.idx < s.rlen) :
    ∃ v, Does 1 [] 1 0 s (afterDrain v) ∧ At .rxne .leave ws v ∧ Holds s v ∧ v.idx = s.idx ∧ dataByte v.rdata = b := by
  obtain ⟨hat, hmet⟩ := h.readData
  have hrow : drainRow s = true := by simp [drainRow, hi]
  exact ⟨_, (makes_row (i := .pRdData) (v := some (s.readValue .data)) h (by simp [State.running, h.fsm])
    (by simp [hasRow, h.fsm, h.stage, hrow]) (leadsTo_leave_rxne h.fsm h.stage) rfl
    (by rw [(MovesOnly.afterDrain _).frame]; rfl)).does, hat, Holds.readData s, rfl, by simpa [Want.met] using hmet⟩

/-- `r9` after the drain of the last byte but one. -/
theorem does_nackAfterDrain (h : At .rxne .leaveCtrl ws s) (hi : s.idx + 2 = s.rlen) :
    ∃ t, Does 1 [] 0 1 s t ∧ At .rxne .monitor ws t ∧ Keeps s t ∧ t.host = s.host ∧ t.idx = s.idx + 1 ∧
      ackBit t = false := by
  have hrow : drainRow s = true := by simp [drainRow]; omega
  exact ⟨_, (makes_row (i := .pNackStop) h (by simp [State.running, h.fsm]) (by simp [hasRow, h.fsm, h.stage, hrow])
    (leadsTo_leaveCtrl_rxne h.fsm h.stage) rfl rfl).does, ((h.update ..).setIdx _).goPoll .rxne,
    (Keeps.nackStop s).trans ((Holds.setIdx _ _).trans (.goPoll ..)).toKeeps, rfl, rfl, ackBit_nackStop s⟩

/-- `r9` after the latch-clearing read, where one byte is to be received. -/
theorem does_nackAfterLatchClear (h : At .addrclr .leaveCtrl ws s) (hp : s.phase = .rd) :
    ∃ t, Does 1 [] 0 1 s t ∧ At .rxne .monitor ws t ∧ Keeps s t ∧ t.host = s.host ∧ t.idx = 0 ∧ ackBit t = false :=
  ⟨_, (makes_row (i := .pNackStop) h (by simp [State.running, h.fsm]) (by simp [hasRow, h.fsm, h.stage])
    (leadsTo_leaveCtrl_addrclr_rd h.fsm h.stage hp) rfl rfl).does, ((h.update ..).setIdx _).goPoll .rxne,
    (Keeps.nackStop s).trans ((Holds.setIdx _ _).trans (.goPoll ..)).toKeeps, rfl, rfl, ackBit_nackStop s⟩

/-- The `RXNE` poll and the drain of a byte: 2 accesses (41_bus_sequencer.md R146). The byte is stored in `storeReceived
v`, which `afterDrain v` goes on from. -/
theorem does_byteReceived (h : At .rxne .monitor (.flag Bit.rxne :: .byte b :: ws) s) (hi : s.idx < s.rlen)
    (hwf : s.host.rxbuf.wf = true) :
    ∃ v, Does 2 [] 1 0 s (afterDrain v) ∧ At .rxne .leave ws (storeReceived v) ∧ v.idx = s.idx ∧ ackBit v = ackBit s ∧
      Receives s.idx [b] s (storeReceived v) := by
  obtain ⟨s₁, hpoll, hat₁, hold₁, hidx₁⟩ := does_rxnePoll h hi
  obtain ⟨v, hdrain, hat, hold₂, hidx₂, hb⟩ := does_drain hat₁ (by rw [hidx₁, hold₁.rlen]; exact hi)
  have hold := hold₁.trans hold₂
  have hidx := hidx₂.trans hidx₁
  have hstored := Receives.storeReceived (s := v) (by rw [hold.host]; exact hwf) hb
  rw [hidx] at hstored
  exact ⟨v, (hpoll.trans hdrain).cast, hat.storeReceived, hidx, hold.ack, hstored.after hold.toKeeps hold.host⟩

theorem afterDrain_last (h : s.idx + 1 = s.rlen) : afterDrain s = goPoll .stop (storeReceived s) := if_pos h

theorem afterDrain_lastButOne (h : s.idx + 2 = s.rlen) :
    afterDrain s = goStage .leaveCtrl (storeReceived s) := by
  rw [afterDrain, if_neg (by omega), if_pos h]

theorem afterDrain_earlier (h : s.idx + 2 < s.rlen) :
    afterDrain s = goPoll .rxne { storeReceived s with idx := s.idx + 1 } := by
  rw [afterDrain, if_neg (by omega), if_neg (by omega)]

/-- The last byte; `r9` was made before (41_bus_sequencer.md R149). -/
theorem does_lastByte (h : At .rxne .monitor (.flag Bit.rxne :: .byte b :: ws) s) (hi : s.idx + 1 = s.rlen)
    (hwf : s.host.rxbuf.wf = true) :
    ∃ t, Does 2 [] 1 0 s t ∧ At .stop .monitor ws t ∧ ackBit t = ackBit s ∧ Receives s.idx [b] s t := by
  obtain ⟨v, hdoes, hat, hidx, hack, hrec⟩ := does_byteReceived h (by omega) hwf
  have hrlen : v.rlen = s.rlen := hrec.rlen
  rw [afterDrain_last (by omega)] at hdoes
  exact ⟨_, hdoes, hat.goPoll .stop, hack, hrec.before (Holds.goPoll ..).toKeeps rfl⟩

/-- The last two bytes, `r9` between them (41_bus_sequencer.md R151). -/
theorem does_lastTwoBytes {b' : Byte}
    (h : At .rxne .monitor (.flag Bit.rxne :: .byte b :: .flag Bit.rxne :: .byte b' :: ws) s) (hi : s.idx + 2 = s.rlen)
    (hwf : s.host.rxbuf.wf = true) :
    ∃ t, Does 5 [] 2 1 s t ∧ At .stop .monitor ws t ∧ ackBit t = false ∧ Receives s.idx [b, b'] s t := by
  obtain ⟨v, hdoes, hat, hidx, -, hrec⟩ := does_byteReceived h (by omega) hwf
  have hrlen : v.rlen = s.rlen := hrec.rlen
  rw [afterDrain_lastButOne (by omega)] at hdoes
  obtain ⟨s₁, hnack, hat₁, hkeeps, hhost, hidx₁, hack⟩ := does_nackAfterDrain (hat.goStage .leaveCtrl) (by simp; omega)
  have hrlen₁ : s₁.rlen = s.rlen := hkeeps.rlen.trans hrlen
  have hnext : s₁.idx = s.idx + 1 := by rw [hidx₁, ← hidx]; rfl
  obtain ⟨t, hlast, hatt, hsame, hrec'⟩ := does_lastByte hat₁ (by omega) (by rw [hhost]; exact hrec.wf)
  rw [hnext] at hrec'
  exact ⟨t, ((hdoes.trans hnack).trans hlast).cast, hatt, hsame.trans hack,
    (hrec.before ((Holds.goStage ..).toKeeps.trans hkeeps) hhost).cons hrec'⟩

/-- Two bytes or more. -/
theorem does_bytes {b' : Byte} (h : At .rxne .monitor (wantsBytes (b :: b' :: bs) ++ ws) s)
    (hi : s.idx + (bs.length + 2) = s.rlen) (hwf : s.host.rxbuf.wf = true) :
    ∃ t, Does (2 * bs.length + 5) [] (bs.length + 2) 1 s t ∧ At .stop .monitor ws t ∧ ackBit t = false ∧
      Receives s.idx (b :: b' :: bs) s t := by
  induction bs generalizing s b b' with
  | nil => exact does_lastTwoBytes h hi hwf
  | cons b'' bs ih =>
    obtain ⟨v, hdoes, hat, hidx, -, hrec⟩ := does_byteReceived h (by omega) hwf
    have hrlen : v.rlen = s.rlen := hrec.rlen
    simp only [List.length_cons] at hi ⊢
    rw [afterDrain_earlier (by omega)] at hdoes
    obtain ⟨t, hrest, hatt, hack, hrec'⟩ := ih ((hat.setIdx (v.idx + 1)).goPoll .rxne) (by simp; omega) hrec.wf
    have hnext : v.idx + 1 = s.idx + 1 := by rw [hidx]
    have hkeeps := ((Holds.setIdx (v.idx + 1) (storeReceived v)).trans (.goPoll .rxne _)).toKeeps
    exact ⟨t, (hdoes.trans hrest).cast, hatt, hack, (hrec.before hkeeps rfl).cons (hnext ▸ hrec')⟩

/-! ### The whole read phase -/

/-- From the latch-clearing read of the read phase to the STOP poll. -/
theorem does_wholeRead (h : At .addrclr .leave (.any :: (wantsBytes bs ++ ws)) s) (hp : s.phase = .rd) (hbs : bs ≠ [])
    (hn : s.rlen = bs.length) (hwf : s.host.rxbuf.wf = true) :
    ∃ t, Does (2 + 2 * bs.length) [] bs.length 1 s t ∧ At .stop .monitor ws t ∧ ackBit t = false ∧
      Receives 0 bs s t := by
  have hpos : 0 < bs.length := List.length_pos_of_ne_nil hbs
  obtain ⟨v, hlatch, hat, hold⟩ := does_latchClear h (by simp [latchRow, hp, hn, hpos])
  have hrd : v.phase = .rd := hold.phase.trans hp
  have hrlen := hold.rlen.trans hn
  have hwf' : v.host.rxbuf.wf = true := by rw [hold.host]; exact hwf
  match bs with
  | [b] =>
    have hctrl : afterLatchClear v = goStage .leaveCtrl v := by simp [afterLatchClear, hrd, hrlen]
    rw [hctrl] at hlatch
    obtain ⟨s₁, hnack, hat₁, hkeeps, hhost, hidx, hack⟩ := does_nackAfterLatchClear (hat.goStage .leaveCtrl) hrd
    have hrlen₁ : s₁.rlen = 1 := hkeeps.rlen.trans hrlen
    have hhost₁ : s₁.host = s.host := hhost.trans hold.host
    obtain ⟨t, hlast, hatt, hsame, hrec⟩ := does_lastByte hat₁ (by omega) (by rw [hhost₁]; exact hwf)
    rw [hidx] at hrec
    exact ⟨t, ((hlatch.trans hnack).trans hlast).cast (hm := by simp) (he := by simp), hatt, hsame.trans hack,
      hrec.after ((hold.trans (.goStage ..)).toKeeps.trans hkeeps) hhost₁⟩
  | b :: b' :: bs =>
    have hmore : afterLatchClear v = goPoll .rxne { v with idx := 0 } := by simp [afterLatchClear, hrd, hrlen]
    rw [hmore] at hlatch
    obtain ⟨t, hbytes, hatt, hack, hrec⟩ := does_bytes ((hat.setIdx 0).goPoll .rxne) (by simp [hrlen]) hwf'
    have hhold := hold.trans (.trans (.setIdx 0 v) (.goPoll .rxne _))
    exact ⟨t, (hlatch.trans hbytes).cast (hm := by simp; omega) (he := by simp), hatt, hack,
      hrec.after hhold.toKeeps hhold.host⟩

/-- The read phase after its START request, and the STOP poll. -/
theorem does_readPhase (h : At .start .monitor (wantsRead bs) s) (hp : s.phase = .rd) (hbs : bs ≠ [])
    (hn : s.rlen = bs.length) (hwf : s.host.rxbuf.wf = true) :
    ∃ t, Does (9 + 2 * bs.length) [addrByte s.addr7 true] bs.length 1 s t ∧ t.fsm = .idle ∧ t.result = some .ok ∧
      ackBit t = false ∧ hasBit t.per.ctrl1 Bit.stop = false ∧ Receives 0 bs s t := by
  rw [wantsRead, List.append_assoc] at h
  obtain ⟨s₁, haddress, hat₁, hold₁⟩ := does_addressPhase h
  obtain ⟨s₂, hbytes, hat₂, hack, hrec⟩ := does_wholeRead hat₁ (hold₁.phase.trans hp) hbs (hold₁.rlen.trans hn)
    (by rw [hold₁.host]; exact hwf)
  obtain ⟨t, hpoll, hidle, hok, hstop, hold₂⟩ := does_stopPoll hat₂
  rw [hp] at haddress
  exact ⟨t, ((haddress.trans hbytes).trans hpoll).cast (hcs := rfl), hidle, hok, hold₂.ack.trans hack, hstop,
    (hrec.after hold₁.toKeeps hold₁.host).before hold₂.toKeeps hold₂.host⟩

end ReadPhase

/-! ### The commands -/

/-- Settles O43: the START request and the read phase, 1 + 9 + 2·RLEN accesses. -/
theorem faultFreeRead : Obligations.FaultFreeRead := by
  unfold Obligations.FaultFreeRead
  intro s a bs hf hc hin hbs hwf hclean hmet
  have hpos : 0 < bs.length := List.length_pos_of_ne_nil hbs
  obtain ⟨s₁, hrequest, hat, hkeeps, hp, hhost⟩ := makes_request_rd (at_startPhase (op := .read) (a := a) (w := 0)
    (n := bs.length) (p := .rd) hin hclean hmet) rfl
  obtain ⟨u, hread, hidle, hok, hack, hstop, hrec⟩ :=
    does_readPhase hat hp hbs hkeeps.rlen (by rw [hhost]; exact hwf)
  have hall := hrec.after hkeeps hhost
  have haddr : s₁.addr7 = a := hkeeps.addr7
  rw [haddr] at hread
  obtain ⟨new, hnew⟩ := (hrequest.does.trans hread).cast (m := 10 + 2 * bs.length) (cs := [addrByte a true])
    (e := bs.length) (q := 1)
  have hexec := exec_read hf hc a bs.length
  rw [enterRead_of_pos (s := latchTransfer .read a 0 bs.length s) hpos] at hexec
  exact ⟨_, u, new, hexec, hnew.run, hidle, hok, hnew.trace, hnew.length, hnew.ports, hnew.bytes, hnew.drains,
    hnew.stops, hall.bytes, fun k hk => hall.others k (.inr (by omega)), hall.txbuf, hall.pe, hack, hstop, hall.ctrl2,
    hall.ccr, hall.trise, hall.timings, hall.config, hall.constructed.trans hc⟩

/-- Settles O44: the write phase, the repeated START and the read phase, 7 + 3·WLEN + 1 + 9 + 2·RLEN accesses. -/
theorem faultFreeWrrd : Obligations.FaultFreeWrrd := by
  unfold Obligations.FaultFreeWrrd
  intro s a w bs hf hc hin hbs hwf hclean hmet
  have hpos : 0 < bs.length := List.length_pos_of_ne_nil hbs
  rw [wantsWrrd, List.append_assoc] at hmet
  obtain ⟨g, v, first, hfirst, hstart, hover, hold⟩ := makes_writePhase (at_startPhase (op := .wrrd) (a := a) (w := w)
    (n := bs.length) (p := .wr) hin hclean hmet) rfl rfl
  obtain ⟨f, g', hat⟩ := payloadOver_at hover
  have hrlen : v.rlen = bs.length := hold.rlen
  rw [afterPayload_wrrd hold.op, enterRead_of_pos (by omega)] at hfirst
  have hatRead : At .start .request (wantsRead bs) (startPhase .rd v) := ⟨hat.inputs, rfl, rfl, hat.clean, hat.answers⟩
  obtain ⟨s₁, hrestart, hat₁, hkeeps, hp, hhost⟩ := makes_request_rd hatRead rfl
  obtain ⟨u, ⟨second, hsecond⟩, hidle, hok, hack, hstop, hrec⟩ :=
    does_readPhase hat₁ hp hbs (hkeeps.rlen.trans hrlen) (by rw [hhost]; exact hold.host ▸ hwf)
  have hall := hrec.after ((hold.toKeeps.trans (Keeps.startPhase .rd v)).trans hkeeps) (hhost.trans hold.host)
  have haddr : s₁.addr7 = a := hkeeps.addr7.trans hold.addr7
  rw [haddr] at hsecond
  have hnew := ((hfirst.trans hrestart).trans hsecond).cast (m := 17 + 3 * w + 2 * bs.length)
    (cs := addrByte a false :: (payload s.host.txbuf 0 w ++ [addrByte a true])) (e := bs.length) (q := 1)
    (hm := by simp; omega)
  exact ⟨_, u, _, exec_wrrd hf hc a w bs.length, hnew.run, hidle, hok, hnew.trace, hnew.length, hnew.ports, hnew.bytes,
    hnew.drains, hnew.stops,
    ⟨first, second, _, _, rfl, rfl, rfl, hstart, hfirst.bytes, hsecond.bytes, hfirst.stops, hsecond.stops,
      hfirst.drains, hsecond.drains⟩,
    hall.bytes, fun k hk => hall.others k (.inr (by omega)), hall.txbuf, hack, hstop, hall.timings, hall.config,
    hall.constructed.trans hc⟩

end Sys2Proof.Machine
end

section
/-! PROOF. The error flag monitor (42_error_flag_monitor.md R180 to R188). The clears of a call are steps of their own,
and the status word read at its start decides which of them are made. -/

namespace Sys2Proof.Machine

/-! ### The steps of a call -/

section Clears
variable {s : State}

theorem hasRow_of_clearErr {f : ErrFlag} (hrow : pollRow s = true) (hg : s.stage = .clearErr f) : hasRow s = true := by
  unfold hasRow
  split
  · rfl
  · rfl
  · rfl
  · simpa [hg] using hrow

/-- The clear of the flag a call reports. -/
theorem step_clearErr {f : ErrFlag} (hin : s.host.inputs = []) (hrow : pollRow s = true) (hg : s.stage = .clearErr f) :
    step s = .next (afterClearErr f (pClear (errBit f) s)) :=
  have hf := polls_of_pollRow hrow
  step_of_leadsTo hin (running_of_polls hf) (hasRow_of_clearErr hrow hg) (leadsTo_clearErr hf hg)

/-- The clear of `BERR`. -/
theorem step_clearBerr {e : Option ErrFlag} (hin : s.host.inputs = []) (hrow : pollRow s = true)
    (hg : s.stage = .clearBerr e) : step s = .next (afterClearBerr e (pClear Bit.berr s)) :=
  step_of_leadsTo hin (running_of_polls (polls_of_pollRow hrow)) (hasRow_of_pollRow hrow (.inr ⟨e, hg⟩))
    (leadsTo_clearBerr (polls_of_pollRow hrow) hg)

end Clears

/-! ### A call that reports an error -/

/-- The state after a call has read `STAT1` and cleared the flag `f` it reports. -/
def flagCleared (f : ErrFlag) (s : State) : State := pClear (errBit f) (goStage (.clearErr f) (pRead .stat1 s))

@[simp] theorem flagCleared_rdata (f : ErrFlag) (s : State) : (flagCleared f s).rdata = s.readValue .stat1 := rfl

section Reports
variable {s : State} {f : ErrFlag}

/-- A call that sees an error flag first clears that flag (42_error_flag_monitor.md R181, R183). -/
theorem run_monitor_flagCleared (hin : s.host.inputs = []) (hrow : pollRow s = true) (hg : s.stage = .monitor)
    (hfirst : firstError (s.readValue .stat1) = some f) : run 2 s = .next (afterClearErr f (flagCleared f s)) := by
  have hread : step s = .next (goStage (.clearErr f) (pRead .stat1 s)) := by
    rw [step_monitor hin hrow hg, afterStatusRead, pRead_rdata, hfirst]
  have hclear := step_clearErr (s := goStage (.clearErr f) (pRead .stat1 s)) hin hrow rfl
  rw [run_succ 1 hread, run_succ 0 hclear]
  rfl

/-- Without `BERR` the error then ends the command (42_error_flag_monitor.md R184; 41_bus_sequencer.md R154). -/
theorem run_monitor_error (hin : s.host.inputs = []) (hrow : pollRow s = true) (hg : s.stage = .monitor)
    (hfirst : firstError (s.readValue .stat1) = some f) (hberr : hasBit (s.readValue .stat1) Bit.berr = false) :
    run 2 s = .next (complete (errResult f) (flagCleared f s)) := by
  have hend : afterClearErr f (flagCleared f s) = complete (errResult f) (flagCleared f s) :=
    if_neg (by simp [hberr])
  rw [run_monitor_flagCleared hin hrow hg hfirst, hend]

/-- With `BERR` the error ends the command one step later, after `BERR` has been cleared (R185). -/
theorem run_monitor_error_berr (hin : s.host.inputs = []) (hrow : pollRow s = true) (hg : s.stage = .monitor)
    (hfirst : firstError (s.readValue .stat1) = some f) (hberr : hasBit (s.readValue .stat1) Bit.berr = true) :
    run 3 s = .next (complete (errResult f) (pClear Bit.berr (goStage (.clearBerr (some f)) (flagCleared f s)))) := by
  have hnext : afterClearErr f (flagCleared f s) = goStage (.clearBerr (some f)) (flagCleared f s) := if_pos hberr
  have hclear := step_clearBerr (s := goStage (.clearBerr (some f)) (flagCleared f s)) hin hrow rfl
  rw [run_add (j := 2) (k := 1) (run_monitor_flagCleared hin hrow hg hfirst), hnext, run_succ 0 hclear]
  rfl

end Reports

theorem encode_clearOf (f : ErrFlag) :
    encode (clearOf f) = .record (packP 3 Reg.stat1.offset (maskBit (errBit f)) 0) := by
  cases f <;> rfl

theorem bitsSet_clearBit_clearBit (old : Word) (m n : Nat) :
    bitsSet [(m, false), (n, false)] old (clearBit (clearBit old m) n) := by
  refine ⟨?_, fun k hk => ?_⟩
  · simp [hasBit_clearBit]
  · have hm : m ≠ k := by rintro rfl; exact hk false (by simp)
    have hn : n ≠ k := by rintro rfl; exact hk false (by simp)
    simp [hasBit_clearBit, hm, hn]

/-- Settles O37: the call reads, clears the flag it reports, and clears `BERR` in one step more where it was set. -/
theorem monitorReportsFirstError : Obligations.MonitorReportsFirstError := by
  unfold Obligations.MonitorReportsFirstError
  rintro s v f hin hrow hg rfl hflags
  have hfirst : firstError (s.readValue .stat1) = some f := by
    unfold firstError
    cases f with
    | timeout => exact if_pos hflags
    | pecerr | ovr | af | arlo =>
      simp only at hflags
      simp [Bit.timeout, Bit.pecerr, Bit.ovr, Bit.af, Bit.arlo, hflags]
  cases hberr : hasBit (s.readValue .stat1) 8 with
  | false =>
    exact ⟨_, _, _, run_monitor_error hin hrow hg hfirst hberr, rfl, rfl, encode_clearOf f, rfl,
      bitsSet_clearBit _ (errBit f), rfl⟩
  | true =>
    exact ⟨_, _, _, run_monitor_error_berr hin hrow hg hfirst hberr, rfl, rfl, encode_clearOf f, rfl,
      bitsSet_clearBit_clearBit _ (errBit f) Bit.berr, rfl⟩

/-! ### A call that reports nothing -/

/-- Settles O38: a calm word without `BERR` is one step, and `BERR` is cleared in one step more. -/
theorem monitorSwallowsBusError : Obligations.MonitorSwallowsBusError := by
  unfold Obligations.MonitorSwallowsBusError
  rintro s v hin hrow hg rfl hcalm
  exact ⟨_, _, exec_pRdStat1 s, rfl, bitsSet_clearBit (s.readValue .stat1) Bit.berr,
    fun hberr => step_monitor_calm hin hrow hg hcalm hberr,
    fun hberr => ⟨.clearBerr none, run_monitor_berr hin hrow hg hcalm hberr⟩⟩

end Sys2Proof.Machine
end

section
/-! PROOF. The configuration commands (43_configuration.md R195 to R208): their acceptance, and their runs. The stretches of
a run are said once: up to `c5` (`run_prepared`), the calculation (`cfgCalculate_of_ok`, `cfgCalculate_of_error`) and
`CfgWrite` with the end of `INIT` or of `RECONF` (`run_cfgWrite_init`, `run_cfgWrite_reconf`). What the written registers
hold is said by `lowField_written` and `ccr_written`. -/

namespace Sys2Proof.Machine

/-! ### Acceptance -/

/-- A fatal calculation has no `ccr` to refuse (log 17). -/
theorem ccrTooWide_eq_false {clock target : Nat} (h : ∀ t, tcalc clock target = .ok t → t.ccr ≤ 4095) :
    ccrTooWide clock target = false := by
  unfold ccrTooWide
  split
  · next t ht => exact decide_eq_false (Nat.not_lt.mpr (h t ht))
  · rfl

theorem ccrTooWide_of_ok {clock target : Nat} {t : Timings} (ht : tcalc clock target = .ok t) (hccr : t.ccr ≤ 4095) :
    ccrTooWide clock target = false :=
  ccrTooWide_eq_false fun t' ht' => by cases ht.symm.trans ht'; exact hccr

/-- Settles O23: no refusal applies, and acceptance latches the operands. -/
theorem configurationAccepted : Obligations.ConfigurationAccepted := by
  unfold Obligations.ConfigurationAccepted
  intro s f hf htarget hccr
  have hfits := ccrTooWide_eq_false hccr
  exact ⟨fun hc scl sda => exec_init hf hc htarget hfits scl sda, fun hc => exec_reconf hf hc htarget hfits⟩

theorem unimplemented_of_idle {s : State} (hf : s.fsm = .idle) :
    unimplemented s = .next (raiseFatal .unimplemented s) := if_neg (not_not.mpr hf)

/-- Settles O24: both opcodes are `unimplemented`, which does not look at `CONSTRUCTED`. -/
theorem abortingOpcodes : Obligations.AbortingOpcodes := by
  unfold Obligations.AbortingOpcodes
  exact fun s hf => ⟨unimplemented_of_idle hf, unimplemented_of_idle hf⟩

/-! ### The stretches of a run -/

/-- With nothing to happen outside, a configuration step with an access. -/
theorem step_of_cfgAccess {s u : State} {k : CfgStep} {i : Instr} (hin : s.host.inputs = []) (hk : s.fsm = .cfg k)
    (ha : cfgAccess k s.plan = some i) (hu : exec i s = .next u) : step s = .next (afterCfg k u) := by
  have haccess : access s = some i := by simp only [access, hk, ha]
  have hrow : hasRow s = true := by simp only [hasRow, hk]
  have hk' : u.fsm = .cfg k := by rw [exec_port_frame (access_isPort haccess) hu]; exact hk
  rw [step_of_access hin (by simp only [State.running, hk]) hrow haccess hu, advance_of_cfg hk']

theorem cfgCalculate_of_ok {s : State} {t : Timings} (h : tcalc s.pclkHz s.freq = .ok t) (k : CfgStep) :
    cfgCalculate k s = { s with plan := t, fsm := .cfg k } := by
  simp only [cfgCalculate, h]

theorem cfgCalculate_of_error {s : State} {r : FatalReason} (h : tcalc s.pclkHz s.freq = .error r) (k : CfgStep) :
    cfgCalculate k s = raiseFatal r s := by
  simp only [cfgCalculate, h]

/-- What `c1` to `c5` leave: the four strobes in their order, and `PE` at 0. -/
def prepared (s : State) : State :=
  pUpdate .ctrl1 0x0001 0x0000 (extStrobe (.extPinSda s.pull.sdaPullup) (extStrobe (.extPinScl s.pull.sclPullup)
    (extReset (extStrobe .extClockEnable s))))

@[simp] theorem prepared_pclkHz (s : State) : (prepared s).pclkHz = s.pclkHz := by simp [prepared]
@[simp] theorem prepared_freq (s : State) : (prepared s).freq = s.freq := by simp [prepared]

/-- What `CfgWrite` leaves of the record `t` (43_configuration.md R201). -/
def clockWritten (t : Timings) (s : State) : State :=
  pUpdate .trise 0x003F ((sixBits t.trise).zeroExtend 16)
    (pUpdate .ccr 0xCFFF (ccrImage (fsOf t.mode) (dutyOf t.duty) (twelveBits t.ccr))
      (pUpdate .ctrl2 0x003F ((sixBits t.divisor).zeroExtend 16) s))

section Stretches
variable {s : State} (hin : s.host.inputs = [])
include hin

theorem run_prepared (hk : s.fsm = .cfg .c1) : run 5 s = .next { prepared s with fsm := .cfg .c6 } :=
  (run_succ 4 (step_of_internal hin hk rfl)).trans <| Eq.trans (run_succ 3 (step_of_internal hin rfl rfl)) <|
    Eq.trans (run_succ 2 (step_of_internal hin rfl rfl)) <| Eq.trans (run_succ 1 (step_of_internal hin rfl rfl)) <|
    Eq.trans (run_succ 0 (step_of_cfgAccess hin rfl rfl (exec_pPeOff _))) rfl

theorem step_c6_of_ok {t : Timings} (hk : s.fsm = .cfg .c6) (ht : tcalc s.pclkHz s.freq = .ok t) :
    step s = .next { s with plan := t, fsm := .cfg .c7 } :=
  (step_of_internal hin hk rfl).trans (congrArg _ (cfgCalculate_of_ok ht .c7))

theorem step_c6_of_error {r : FatalReason} (hk : s.fsm = .cfg .c6) (ht : tcalc s.pclkHz s.freq = .error r) :
    step s = .next (raiseFatal r s) :=
  (step_of_internal hin hk rfl).trans (congrArg _ (cfgCalculate_of_error ht .c7))

theorem run_cfgWrite_init (hk : s.fsm = .cfg .c7) :
    run 4 s = .next (finishInit (pUpdate .ctrl1 0x0001 0x0001 (clockWritten s.plan s))) :=
  (run_succ 3 (step_of_cfgAccess hin hk rfl (exec_pWrFreq _ _))).trans <|
    Eq.trans (run_succ 2 (step_of_cfgAccess hin rfl rfl (exec_pWrCcr _ _ _ _))) <|
    Eq.trans (run_succ 1 (step_of_cfgAccess hin rfl rfl (exec_pWrTrise _ _))) <|
    Eq.trans (run_succ 0 (step_of_cfgAccess hin rfl rfl (exec_pPeOn _))) rfl

theorem run_cfgWrite_reconf (hk : s.fsm = .cfg .g2) : run 3 s = .next (finishReconf (clockWritten s.plan s)) :=
  (run_succ 2 (step_of_cfgAccess hin hk rfl (exec_pWrFreq _ _))).trans <|
    Eq.trans (run_succ 1 (step_of_cfgAccess hin rfl rfl (exec_pWrCcr _ _ _ _))) <|
    Eq.trans (run_succ 0 (step_of_cfgAccess hin rfl rfl (exec_pWrTrise _ _))) rfl

/-! ### The four ways a configuration command runs -/

theorem run_init_ok {t : Timings} (hk : s.fsm = .cfg .c1) (ht : tcalc s.pclkHz s.freq = .ok t) :
    run 10 s = .next (finishInit (pUpdate .ctrl1 0x0001 0x0001 (clockWritten t { prepared s with plan := t }))) := by
  have hcalc := step_c6_of_ok (s := { prepared s with fsm := .cfg .c6 }) hin rfl (by simpa using ht)
  rw [run_add (k := 5) (run_prepared hin hk), run_succ 4 hcalc]
  exact run_cfgWrite_init hin rfl

theorem run_init_fatal {r : FatalReason} (hk : s.fsm = .cfg .c1) (ht : tcalc s.pclkHz s.freq = .error r) :
    run 6 s = .next (raiseFatal r (prepared s)) := by
  have hcalc := step_c6_of_error (s := { prepared s with fsm := .cfg .c6 }) hin rfl (by simpa using ht)
  rw [run_add (k := 1) (run_prepared hin hk), run_succ 0 hcalc]
  rfl

theorem run_reconf_ok {t : Timings} (hk : s.fsm = .cfg .g1) (ht : tcalc s.pclkHz s.freq = .ok t) :
    run 4 s = .next (finishReconf (clockWritten t { s with plan := t })) := by
  have hcalc : step s = .next { s with plan := t, fsm := .cfg .g2 } :=
    (step_of_internal hin hk rfl).trans (congrArg _ (cfgCalculate_of_ok ht .g2))
  rw [run_succ 3 hcalc]
  exact run_cfgWrite_reconf hin rfl

theorem run_reconf_fatal {r : FatalReason} (hk : s.fsm = .cfg .g1) (ht : tcalc s.pclkHz s.freq = .error r) :
    run 1 s = .next (raiseFatal r s) :=
  run_succ 0 ((step_of_internal hin hk rfl).trans (congrArg _ (cfgCalculate_of_error ht .g2)))

end Stretches

/-! ### The fields written -/

/-- A field at the bottom of a register, from its bits. -/
theorem extractLsb'_eq_of_bits {n : Nat} {v : Word} {d : BitVec n} (h : ∀ k < n, hasBit v k = d.getLsbD k) :
    v.extractLsb' 0 n = d := by
  apply BitVec.eq_of_getLsbD_eq
  intro k hk
  simpa [hasBit, hk] using h k hk

/-- An update that gives the lowest bits of a register those of `d` leaves `d` in the field they are. -/
theorem extractLsb'_of_bitsSet {n : Nat} {d : BitVec n} {new : List (Nat × Bool)} {old v : Word}
    (h : bitsSet new old v) (hnew : ∀ nb ∈ fieldBits 0 d, nb ∈ new) : v.extractLsb' 0 n = d :=
  extractLsb'_eq_of_bits fun k hk => h.1 (k, d.getLsbD k) (hnew _ (mem_fieldBits_zero.2 ⟨hk, rfl⟩))

theorem toNat_mod_of_extractLsb' {n m : Nat} {v : Word} (h : v.extractLsb' 0 n = BitVec.ofNat n m) (hm : m < 2 ^ n) :
    v.toNat % 2 ^ n = m := by
  have hnum := congrArg BitVec.toNat h
  simpa [Nat.mod_eq_of_lt hm] using hnum

/-- The field `CTRL2.FREQ` or `TRISE.TRISE` after its update. -/
theorem lowField_written (n : Nat) (old : Word) :
    (underMask 0x003F old ((sixBits n).zeroExtend 16)).extractLsb' 0 6 = BitVec.ofNat 6 n :=
  extractLsb'_of_bitsSet (bitsSet_lowSix (sixBits n) old) fun _ h => h

theorem toNat_lowField_written {n : Nat} (hn : n < 64) (old : Word) :
    (underMask 0x003F old ((sixBits n).zeroExtend 16)).toNat % 64 = n :=
  toNat_mod_of_extractLsb' (lowField_written n old) hn

theorem hasBit_above_lowField (n : Nat) (old : Word) (k : Nat) (hk : 6 ≤ k) :
    hasBit (underMask 0x003F old ((sixBits n).zeroExtend 16)) k = hasBit old k :=
  (bitsSet_lowSix (sixBits n) old).2 k fun _ hb => absurd (mem_fieldBits_zero.1 hb).1 (Nat.not_lt.mpr hk)

/-- The fields of `CCR` after their update; bits 13:12 are none of theirs. -/
theorem ccr_written (fs duty : Bool) (n : Nat) (old : Word) :
    let v := underMask 0xCFFF old (ccrImage fs duty (twelveBits n))
    v.extractLsb' 0 12 = BitVec.ofNat 12 n ∧ hasBit v 14 = duty ∧ hasBit v 15 = fs ∧
      hasBit v 12 = hasBit old 12 ∧ hasBit v 13 = hasBit old 13 := by
  have h := bitsSet_ccr fs duty (twelveBits n) old
  have hkept : ∀ k, k = 12 ∨ k = 13 → ∀ b, (k, b) ∉ (15, fs) :: (14, duty) :: fieldBits 0 (twelveBits n) := by
    intro k hk b hb
    simp only [List.mem_cons, Prod.mk.injEq, mem_fieldBits_zero] at hb
    omega
  exact ⟨extractLsb'_of_bitsSet h fun _ hb => List.mem_cons_of_mem _ (List.mem_cons_of_mem _ hb),
    h.1 (14, duty) (by simp), h.1 (15, fs) (by simp), h.2 12 (hkept 12 (.inl rfl)), h.2 13 (hkept 13 (.inr rfl))⟩

/-- The fields of a valid record fit the registers (43_configuration.md R202). -/
theorem fits_of_valid {t : Timings} (h : t.valid = true) :
    t.divisor < 64 ∧ t.ccr < 4096 ∧ t.trise < 64 ∧ t.duty = .duty2_1 := by
  simp only [Timings.valid, Bool.and_eq_true, decide_eq_true_eq] at h
  obtain ⟨⟨⟨⟨⟨⟨-, hdiv⟩, hduty⟩, hccr⟩, -⟩, htrise⟩, -⟩ := h
  exact ⟨by omega, by omega, by omega, hduty⟩

theorem fsOf_eq_decide (m : Mode) : fsOf m = decide (m = .fast) := by cases m <;> rfl

theorem bitsSet_peOff (old : Word) : bitsSet [(0, false)] old (underMask 0x0001 old 0x0000) :=
  bitsSet_underMask (by decide) (by decide) old

theorem bitsSet_peOn (old : Word) : bitsSet [(0, true)] old (underMask 0x0001 old 0x0001) :=
  bitsSet_underMask (by decide) (by decide) old

/-- The records `CfgWrite` leaves in the trace are the encodings of its updates. -/
theorem encode_lowField (d : BitVec 6) :
    encode (.pWrFreq d) = .record (packP 2 Reg.ctrl2.offset 0x003F (d.zeroExtend 16)) ∧
      encode (.pWrTrise d) = .record (packP 2 Reg.trise.offset 0x003F (d.zeroExtend 16)) := by
  constructor <;> (rw [← zeros_append_six_eq]; rfl)

theorem encode_pWrCcr (fs duty : Bool) (c : BitVec 12) :
    encode (.pWrCcr fs duty c) = .record (packP 2 Reg.ccr.offset 0xCFFF (ccrImage fs duty c)) := by
  rw [ccrImage_eq_ccrValue]; rfl

/-! ### The obligations -/

/-- Settles O40: the calculation is the step after `PE <- 0` of `INIT`, and the first of `RECONF`. -/
theorem configurationFatal : Obligations.ConfigurationFatal := by
  unfold Obligations.ConfigurationFatal
  intro s f r hf hin htarget hfatal
  have hfits : ccrTooWide s.pclkHz f = false := ccrTooWide_eq_false fun t ht => by simp [hfatal] at ht
  refine ⟨fun hc scl sda => ?_, fun hc => ?_⟩
  · have hrun := run_init_fatal (s := latchConfig .init f { sdaPullup := sda, sclPullup := scl } .c1 s) hin rfl hfatal
    exact ⟨_, _, exec_init hf hc htarget hfits scl sda, hrun, rfl,
      (bitsSet_peOff (Periph.afterExtReset s.env).ctrl1).1 (0, false) (by simp), rfl, rfl, rfl, rfl, hc, rfl⟩
  · exact ⟨_, _, exec_reconf hf hc htarget hfits,
      run_reconf_fatal (s := latchConfig .reconf f s.pull .g1 s) hin rfl hfatal, rfl⟩

/-- Settles O41: the three updates of `CfgWrite`, and then the end of `RECONF`. -/
theorem reconfRun : Obligations.ReconfRun := by
  unfold Obligations.ReconfRun
  intro s f t hf hc hin htarget ht hccr
  have hfits : ccrTooWide s.pclkHz f = false := ccrTooWide_of_ok ht hccr
  obtain ⟨hdiv, hccr', htrise, hduty⟩ := fits_of_valid (valid_of_tcalc ht hfits)
  obtain ⟨hfield, h14, h15, h12, h13⟩ := ccr_written (fsOf t.mode) (dutyOf t.duty) t.ccr s.per.ccr
  have hrun := run_reconf_ok (s := latchConfig .reconf f s.pull .g1 s) hin rfl ht
  rw [← fsOf_eq_decide, show false = dutyOf t.duty by rw [hduty]; rfl]
  exact ⟨_, _, _, _, _, _, _, _, exec_reconf hf hc htarget hfits, hrun, (encode_lowField _).1,
    encode_pWrCcr _ _ _, (encode_lowField _).2, toNat_lowField_written hdiv s.per.ctrl2, hasBit_above_lowField _ _,
    toNat_mod_of_extractLsb' hfield hccr', h14, h15, h12, h13, toNat_lowField_written htrise s.per.trise,
    hasBit_above_lowField _ _, by rw [hf]; rfl⟩

/-- Settles O39: `c1` to `c5`, the calculation, the three updates of `CfgWrite`, and then the end of `INIT`. -/
theorem initRun : Obligations.InitRun := by
  unfold Obligations.InitRun
  intro s f scl sda t hf hc hin htarget ht hccr
  have hfits : ccrTooWide s.pclkHz f = false := ccrTooWide_of_ok ht hccr
  obtain ⟨hdiv, hccr', htrise, hduty⟩ := fits_of_valid (valid_of_tcalc ht hfits)
  obtain ⟨hfield, h14, h15, h12, h13⟩ :=
    ccr_written (fsOf t.mode) (dutyOf t.duty) t.ccr (Periph.afterExtReset s.env).ccr
  have hoff := bitsSet_peOff (Periph.afterExtReset s.env).ctrl1
  have hon := bitsSet_peOn (underMask 0x0001 (Periph.afterExtReset s.env).ctrl1 0x0000)
  have hrun := run_init_ok (s := latchConfig .init f { sdaPullup := sda, sclPullup := scl } .c1 s) hin rfl ht
  rw [← fsOf_eq_decide, show false = dutyOf t.duty by rw [hduty]; rfl]
  refine ⟨_, _, _, _, _, exec_init hf hc htarget hfits scl sda, hrun, rfl, rfl, rfl, rfl, rfl,
    (encode_lowField _).1, encode_pWrCcr _ _ _, (encode_lowField _).2, rfl, hon.1 (0, true) (by simp),
    toNat_lowField_written hdiv _, toNat_mod_of_extractLsb' hfield hccr', h14, h15, toNat_lowField_written htrise _,
    fun k hk => ?_, hasBit_above_lowField _ _, h12, h13, hasBit_above_lowField _ _, rfl, rfl, rfl, rfl, rfl⟩
  exact (hon.2 k (by simp [hk])).trans (hoff.2 k (by simp [hk]))

end Sys2Proof.Machine
end

section
/-! PROOF. Who writes the handle (43_configuration.md R205; 10_state.md R25 to R27). `MovesOnly` says it of a transfer
command; here it is said of the acceptance of a command (`offer_starts`) and of the configuration steps. -/

namespace Sys2Proof.Machine

/-- From `s` to `t` `TIMINGS`, `CONFIG` and `CONSTRUCTED` stay as they are. -/
def keepsHandle (s t : State) : Prop :=
  t.timings = s.timings ∧ t.config = s.config ∧ t.constructed = s.constructed

theorem keepsHandle_refl (s : State) : keepsHandle s s := ⟨rfl, rfl, rfl⟩

theorem keepsHandle.trans {s t u : State} (h : keepsHandle s t) (h' : keepsHandle t u) : keepsHandle s u :=
  ⟨h'.1.trans h.1, h'.2.1.trans h.2.1, h'.2.2.trans h.2.2⟩

theorem MovesOnly.keepsHandle {s t : State} (h : MovesOnly s t) : keepsHandle s t := by
  rw [h.frame]; exact keepsHandle_refl s

theorem keepsHandle_exec_port {i : Instr} (hi : i.isPort = true) {s u : State} (hu : exec i s = .next u) :
    keepsHandle s u := by
  rw [exec_port_frame hi hu]; exact keepsHandle_refl s

theorem keepsHandle_advance {s : State} (hc : ∀ k, s.fsm ≠ .cfg k) : keepsHandle s (advance s) := by
  rcases MovesOnly.advance hc with hm | hm
  · exact hm.keepsHandle
  · exact hm.keepsHandle

theorem keepsHandle_cfgInternal (k : CfgStep) (s : State) : keepsHandle s (cfgInternal k s) := by
  have hcalc : ∀ k', keepsHandle s (cfgCalculate k' s) := fun k' => by
    unfold cfgCalculate
    split <;> exact keepsHandle_refl s
  cases k with
  | c6 | g1 => exact hcalc _
  | _ => exact keepsHandle_refl s

/-- A command is accepted in `IDLE` only, and its acceptance writes neither the handle nor the peripheral; a configuration
command then stands at its first step. -/
def starts (s t : State) : Prop :=
  s.fsm = .idle ∧ keepsHandle s t ∧ t.per = s.per ∧ ∀ k, t.fsm = .cfg k → k = .c1 ∨ k = .g1

theorem exec_command_starts {i : Instr} (hi : i.isPort = false) {s t : State} (h : exec i s = .next t) :
    starts s t := by
  rcases exec_command_cases hi h with ⟨hf, -, hcmd⟩ | ⟨hf, -, _, _, _, -, -, -, rfl⟩ | ⟨hf, -, rfl⟩
  · rcases hcmd with ⟨_, _, -, rfl⟩ | ⟨a, n, -, rfl⟩ | ⟨_, _, _, -, rfl⟩ | ⟨_, -, -, -, rfl⟩
    · exact ⟨hf, keepsHandle_refl s, rfl, nofun⟩
    · have hm := MovesOnly.enterRead (latchTransfer .read a 0 n s)
      exact ⟨hf, hm.keepsHandle, enterRead_per _, fun k hk => absurd (hm.noCfg k hk) (by simp [hf])⟩
    · exact ⟨hf, keepsHandle_refl s, rfl, nofun⟩
    · exact ⟨hf, keepsHandle_refl s, rfl, by simp [eq_comm]⟩
  · exact ⟨hf, keepsHandle_refl s, rfl, by simp [eq_comm]⟩
  · exact ⟨hf, keepsHandle_refl s, rfl, nofun⟩

theorem offer_starts {c : HostCmd} {s t : State} (h : offer c s = .next t) : starts s t := by
  rcases offer_cases h with ⟨hf, -, rfl⟩ | ⟨i, -, hi, hx⟩
  · exact ⟨hf, keepsHandle_refl s, rfl, nofun⟩
  · obtain ⟨hf, hkeep, hper, hfirst⟩ := exec_command_starts hi hx
    have hreceived : keepsHandle s (receive i c s) := ⟨by simp, by simp, by simp⟩
    exact ⟨by simpa using hf, hreceived.trans hkeep, by simpa using hper, hfirst⟩

/-- What a step of the block does to the handle: the end of `INIT` sets it, the end of `RECONF` replaces `TIMINGS`, and
every other step keeps it. -/
def writesHandle (s t : State) : Prop :=
  (s.fsm = .cfg .c10 ∧ t.timings = some s.plan ∧ t.config = some s.pull ∧ t.constructed = true) ∨
  (s.fsm = .cfg .g4 ∧ t.timings = some s.plan ∧ t.config = s.config ∧ t.constructed = s.constructed) ∨
  keepsHandle s t

theorem writesHandle_afterCfg {k : CfgStep} {s : State} (hk : s.fsm = .cfg k) : writesHandle s (afterCfg k s) := by
  cases k with
  | c10 => exact .inl ⟨hk, rfl, rfl, rfl⟩
  | g4 => exact .inr (.inl ⟨hk, rfl, rfl, rfl⟩)
  | _ => exact .inr (.inr (keepsHandle_refl s))

theorem writesHandle_advance (s : State) : writesHandle s (advance s) := by
  by_cases hc : ∀ k, s.fsm ≠ .cfg k
  · exact .inr (.inr (keepsHandle_advance hc))
  · obtain ⟨k, hk⟩ := not_forall_not.mp hc
    rw [advance_of_cfg hk]
    exact writesHandle_afterCfg hk

theorem writesHandle_blockStep {s t : State} (h : blockStep s = .next t) : writesHandle s t := by
  rcases blockStep_cases h with ⟨-, -, i, u, ha, hu, rfl⟩ | ⟨hr, hrow, hn, rfl⟩ | ⟨-, -, rfl⟩ | ⟨-, c, cs, -, ho⟩
  · have hw := writesHandle_advance u
    rw [exec_port_frame (access_isPort ha) hu] at hw ⊢
    exact hw
  · obtain ⟨k, hk, -⟩ := access_none hr hrow hn
    rw [internalStep, hk]
    exact .inr (.inr (keepsHandle_cfgInternal k s))
  · exact .inr (.inr (keepsHandle_refl _))
  · obtain ⟨-, hkeep, -, -⟩ := offer_starts ho
    exact .inr (.inr hkeep)

/-- Settles O59: a step of the block writes the handle where `writesHandle` says, and of what happens outside only a reset
does. -/
theorem handleWriters : Obligations.HandleWriters := by
  unfold Obligations.HandleWriters
  intro s t h
  rcases step_cases h with ⟨xs, -, hb⟩ | ⟨p, xs, hx, -⟩ | ⟨_, _, _, -, rfl⟩ | ⟨_, _, -, ho⟩ | ⟨_, _, _, -, -, rfl⟩ |
    ⟨_, _, _, -, -, rfl⟩ | ⟨_, -, -, rfl⟩
  · exact .inr (writesHandle_blockStep (s := withInputs xs s) hb)
  · exact .inl ⟨p, xs, hx⟩
  · exact .inr (.inr (.inr ⟨rfl, rfl, rfl⟩))
  · obtain ⟨-, hkeep, -, -⟩ := offer_starts ho
    exact .inr (.inr (.inr hkeep))
  all_goals exact .inr (.inr (.inr ⟨rfl, rfl, rfl⟩))

end Sys2Proof.Machine
end

section
/-! PROOF. The clock registers hold `TIMINGS` (43_configuration.md R197, R204). Of the peripheral only the clock fields
count (`SameClock`); an access of a transfer command does not name one (`setsClock_of_access`), the environment owns none,
and each update of `CfgWrite` adds its field to those that hold the new record (`clockOk_afterCfg`). -/

namespace Sys2Proof.Machine

/-! ### The clock fields -/

/-- The clock fields of `q` are those of `p`. -/
structure SameClock (p q : Periph) : Prop where
  freq : ∀ t, freqHolds t q = freqHolds t p
  ccr : ∀ t, ccrHolds t q = ccrHolds t p
  trise : ∀ t, triseHolds t q = triseHolds t p

namespace SameClock

theorem of_registers {p q : Periph} (hf : q.ctrl2 = p.ctrl2) (hc : q.ccr = p.ccr) (ht : q.trise = p.trise) :
    SameClock p q :=
  ⟨fun t => by rw [freqHolds, freqHolds, hf], fun t => by rw [ccrHolds, ccrHolds, hc],
    fun t => by rw [triseHolds, triseHolds, ht]⟩

theorem refl (p : Periph) : SameClock p p := of_registers rfl rfl rfl

theorem clock {p q : Periph} (h : SameClock p q) (t : Timings) : clockHolds t q = clockHolds t p := by
  rw [clockHolds, clockHolds, h.freq, h.ccr, h.trise]

end SameClock

/-- A field under the mask keeps its value when the environment drives the other bits. -/
theorem extractLsb'_underMask {n : Nat} {m : Word} (hm : ∀ k < n, hasBit m k = true) (old new : Word) :
    (underMask m old new).extractLsb' 0 n = new.extractLsb' 0 n := by
  refine extractLsb'_eq_of_bits fun k hk => ?_
  rw [hasBit_underMask, if_pos (hm k hk)]
  simp [hasBit, hk]

/-- The environment owns no clock field (10_state.md R41). -/
theorem sameClock_set_readAnswer (p : Periph) (r : Reg) (a : Word) :
    SameClock p (p.set r (readAnswer r (p.get r) a)) := by
  cases r with
  | ctrl2 =>
    have hfield : (underMask 0x003F a p.ctrl2).extractLsb' 0 6 = _ := extractLsb'_underMask (by decide) a p.ctrl2
    exact ⟨fun t => congrArg (fun x => decide (x = _)) hfield, fun _ => rfl, fun _ => rfl⟩
  | trise =>
    have hfield : (underMask 0x003F a p.trise).extractLsb' 0 6 = _ := extractLsb'_underMask (by decide) a p.trise
    exact ⟨fun _ => rfl, fun _ => rfl, fun t => congrArg (fun x => decide (x = _)) hfield⟩
  | ccr =>
    refine ⟨fun _ => rfl, fun t => ?_, fun _ => rfl⟩
    have hfield : (underMask 0xCFFF a p.ccr).extractLsb' 0 12 = _ := extractLsb'_underMask (by decide) a p.ccr
    have hbit : ∀ k, hasBit 0xCFFF k = true → hasBit (underMask 0xCFFF a p.ccr) k = hasBit p.ccr k := fun k hk => by
      rw [hasBit_underMask, if_pos hk]
    simp only [ccrHolds, Periph.set, Periph.get, readAnswer, hfield, hbit 15 (by decide), hbit 14 (by decide)]
  | _ => exact SameClock.of_registers rfl rfl rfl

/-- The micro-operations of `CfgWrite` on the clock registers. -/
def setsClock : Instr → Bool
  | .pWrFreq _ => true
  | .pWrCcr _ _ _ => true
  | .pWrTrise _ => true
  | _ => false

theorem sameClock_exec {i : Instr} (hi : i.isPort = true) (hs : setsClock i = false) {s u : State}
    (hu : exec i s = .next u) : SameClock s.per u.per := by
  cases i with
  | init | write | read | wrrd | reconf | xiter | xact => cases hi
  | pWrFreq | pWrCcr | pWrTrise => cases hs
  | _ => cases hu; exact .of_registers rfl rfl rfl

/-- No access of a transfer command is one of `CfgWrite`'s. -/
theorem setsClock_of_access {s : State} {i : Instr} (hc : ∀ k, s.fsm ≠ .cfg k) (h : access s = some i) :
    setsClock i = false := by
  revert h
  unfold access
  split
  · exact absurd ‹_› (hc _)
  · unfold requestOf whilePolling secondOf leaveOf leaveCtrlOf clearOf
    repeat' split
    all_goals (intro h; cases h <;> rfl)

/-! ### What the fields hold, by place -/

/-- While `CONSTRUCTED` is 1 the clock fields hold `TIMINGS`. -/
def storedClock (s : State) : Bool := !s.constructed || (s.timings.map (fun t => clockHolds t s.per)).getD false

/-- The places of `CfgWrite` at which a field holds the new record already (43_configuration.md R204). -/
def midCfgWrite : CfgStep → Bool
  | .c8 => true
  | .c9 => true
  | .c10 => true
  | .g3 => true
  | .g4 => true
  | _ => false

/-- Outside `CfgWrite` the fields hold `TIMINGS`. -/
theorem clockOk_eq_storedClock {s : State} (h : ∀ k, s.fsm = .cfg k → midCfgWrite k = false) :
    clockOk s = storedClock s := by
  unfold clockOk
  split
  case h_6 => rfl
  all_goals exact absurd (h _ ‹_›) (by decide)

theorem storedClock_congr {s t : State} (h : keepsHandle s t) (hp : SameClock s.per t.per) :
    storedClock t = storedClock s := by
  obtain ⟨htimings, -, hcon⟩ := h
  simp only [storedClock, htimings, hcon, hp.clock]

/-- A step outside `CfgWrite` that keeps the handle and the clock fields. -/
theorem clockOk_of_keepsHandle {s t : State} (h : clockOk s = true)
    (hs : ∀ k, s.fsm = .cfg k → midCfgWrite k = false) (ht : ∀ k, t.fsm = .cfg k → midCfgWrite k = false)
    (hk : keepsHandle s t) (hp : SameClock s.per t.per) : clockOk t = true := by
  rw [clockOk_eq_storedClock ht, storedClock_congr hk hp, ← clockOk_eq_storedClock hs]
  exact h

/-- What happens outside changes no clock field and no place. -/
theorem clockOk_of_samePlace {s t : State} (h : clockOk s = true) (hf : t.fsm = s.fsm) (hplan : t.plan = s.plan)
    (hk : keepsHandle s t) (hp : SameClock s.per t.per) : clockOk t = true := by
  obtain ⟨htimings, -, hcon⟩ := hk
  simpa only [clockOk, hf, hplan, htimings, hcon, hp.freq, hp.ccr, hp.clock] using h

/-! ### The configuration steps -/

theorem freqHolds_written (t : Timings) (p : Periph) :
    freqHolds t (p.set .ctrl2 (underMask 0x003F p.ctrl2 ((sixBits t.divisor).zeroExtend 16))) = true :=
  decide_eq_true (lowField_written t.divisor p.ctrl2)

theorem triseHolds_written (t : Timings) (p : Periph) :
    triseHolds t (p.set .trise (underMask 0x003F p.trise ((sixBits t.trise).zeroExtend 16))) = true :=
  decide_eq_true (lowField_written t.trise p.trise)

theorem ccrHolds_written (t : Timings) (p : Periph) :
    ccrHolds t (p.set .ccr (underMask 0xCFFF p.ccr (ccrImage (fsOf t.mode) (dutyOf t.duty) (twelveBits t.ccr)))) =
      true := by
  obtain ⟨hfield, hduty, hfs, -, -⟩ := ccr_written (fsOf t.mode) (dutyOf t.duty) t.ccr p.ccr
  simp only [ccrHolds, Periph.set, hfield, hduty, hfs, decide_true, Bool.and_self]

theorem clockOk_afterCfg {k : CfgStep} {i : Instr} {s u : State} (hk : s.fsm = .cfg k)
    (ha : cfgAccess k s.plan = some i) (hu : exec i s = .next u) (h : clockOk s = true) :
    clockOk (afterCfg k u) = true := by
  have hplace := h
  simp only [clockOk, hk] at hplace
  cases k with
  | c5 =>
    cases ha; cases hu
    exact clockOk_of_keepsHandle h (by simp [hk, midCfgWrite]) (by simp [afterCfg, midCfgWrite])
      (keepsHandle_refl s) (.of_registers rfl rfl rfl)
  | c7 | g2 => cases ha; cases hu; exact freqHolds_written s.plan s.per
  | c8 | g3 =>
    cases ha; cases hu
    exact Bool.and_eq_true_iff.2 ⟨hplace, ccrHolds_written s.plan s.per⟩
  | c9 =>
    cases ha; cases hu
    exact Bool.and_eq_true_iff.2 ⟨hplace, triseHolds_written s.plan s.per⟩
  | g4 =>
    cases ha; cases hu
    exact Bool.or_eq_true_iff.2 (.inr (Bool.and_eq_true_iff.2 ⟨hplace, triseHolds_written s.plan s.per⟩))
  | c10 => cases ha; cases hu; exact hplace
  | _ => cases ha

/-- The calculation comes before `CfgWrite`, and `ExtReset` before construction. -/
theorem clockOk_cfgInternal {k : CfgStep} {s : State} (hk : s.fsm = .cfg k) (hn : cfgAccess k s.plan = none)
    (hl : lifecycleOk s = true) (h : clockOk s = true) : clockOk (cfgInternal k s) = true := by
  have keeps {t : State} (hs : midCfgWrite k = false) (ht : ∀ k', t.fsm = .cfg k' → midCfgWrite k' = false)
      (hh : keepsHandle s t) (hp : t.per = s.per) : clockOk t = true := by
    refine clockOk_of_keepsHandle h (fun k' hk' => ?_) ht hh (hp ▸ .refl _)
    cases hk.symm.trans hk'
    exact hs
  have hcalc (k' : CfgStep) (hs : midCfgWrite k = false) (hk' : midCfgWrite k' = false) :
      clockOk (cfgCalculate k' s) = true := by
    unfold cfgCalculate
    split
    · exact keeps hs (fun _ h => by cases h; exact hk') (keepsHandle_refl s) rfl
    · exact keeps hs nofun (keepsHandle_refl s) rfl
  cases k with
  | c1 | c3 | c4 => exact keeps rfl (fun _ h => by cases h; rfl) (keepsHandle_refl s) rfl
  | c2 =>
    have hcon : s.constructed = false := by simp_all [lifecycleOk, CfgStep.ofInit]
    exact Bool.or_eq_true_iff.2 (.inl (by rw [Bool.not_eq_true']; exact hcon))
  | c6 | g1 => exact hcalc _ rfl rfl
  | _ => cases hn

/-! ### Every step -/

theorem clockOk_offer {c : HostCmd} {s t : State} (h : clockOk s = true) (ho : offer c s = .next t) :
    clockOk t = true := by
  obtain ⟨hf, hkeep, hper, hfirst⟩ := offer_starts ho
  refine clockOk_of_keepsHandle h (by simp [hf]) (fun k hk => ?_) hkeep (hper ▸ .refl _)
  rcases hfirst k hk with rfl | rfl <;> rfl

/-- An access of a transfer command, and what follows it, touch no clock field. -/
theorem clockOk_transfer {s u : State} {i : Instr} (hc : ∀ k, s.fsm ≠ .cfg k) (ha : access s = some i)
    (hu : exec i s = .next u) (h : clockOk s = true) : clockOk (advance u) = true := by
  have hport := access_isPort ha
  have hcu : ∀ k, u.fsm ≠ .cfg k := by rw [exec_port_frame hport hu]; exact hc
  have hct : ∀ k, (advance u).fsm ≠ .cfg k := fun k hk => by
    rcases MovesOnly.advance hcu with hm | hm <;> exact hcu k (hm.noCfg k hk)
  refine clockOk_of_keepsHandle h (fun k hk => absurd hk (hc k)) (fun k hk => absurd hk (hct k))
    ((keepsHandle_exec_port hport hu).trans (keepsHandle_advance hcu)) ?_
  rw [advance_per]
  exact sameClock_exec hport (setsClock_of_access hc ha) hu

theorem clockOk_blockStep {s t : State} (hl : lifecycleOk s = true) (h : clockOk s = true)
    (hb : blockStep s = .next t) : clockOk t = true := by
  rcases blockStep_cases hb with ⟨-, -, i, u, ha, hu, rfl⟩ | ⟨hr, hrow, hn, rfl⟩ | ⟨-, -, rfl⟩ | ⟨-, c, cs, -, ho⟩
  · by_cases hc : ∀ k, s.fsm ≠ .cfg k
    · exact clockOk_transfer hc ha hu h
    · obtain ⟨k, hk⟩ := not_forall_not.mp hc
      have hku : u.fsm = .cfg k := by rw [exec_port_frame (access_isPort ha) hu]; exact hk
      rw [advance_of_cfg hku]
      exact clockOk_afterCfg hk (by simpa only [access, hk] using ha) hu h
  · obtain ⟨k, hk, hn⟩ := access_none hr hrow hn
    simp only [internalStep, hk]
    exact clockOk_cfgInternal hk hn hl h
  · exact h
  · exact clockOk_offer (s := { s with host := { s.host with program := cs } }) h ho

theorem undisturbed_iff {s : State} : undisturbed s = true ↔ ∀ r v, .foreign r v ∉ s.host.inputs := by
  simp only [undisturbed, List.all_eq_true]
  refine ⟨fun h r v hmem => by simpa using h _ hmem, fun h x hx => ?_⟩
  cases x with
  | foreign r v => exact absurd hx (h r v)
  | _ => rfl

theorem undisturbed_congr {s t : State} (h : t.host.inputs = s.host.inputs) : undisturbed t = undisturbed s := by
  simp only [undisturbed, h]

theorem undisturbed_offer {c : HostCmd} {s t : State} (h : undisturbed s = true) (ho : offer c s = .next t) :
    undisturbed t = true := by
  rcases offer_cases ho with ⟨-, -, rfl⟩ | ⟨i, -, hi, hx⟩
  · exact h
  · rwa [undisturbed_congr (s := s) (by rw [exec_command_host hi hx, receive_inputs])]

/-- No step adds to what happens outside. -/
theorem undisturbed_step {s t : State} (h : undisturbed s = true) (ht : step s = .next t) : undisturbed t = true := by
  refine step_preserves (P := fun s => undisturbed s = true) (C := fun _ => True)
    (inputs := fun xs s hsub h => undisturbed_iff.2 fun r v hx => undisturbed_iff.1 h r v (hsub _ hx))
    (access := fun s i u h _ _ ha hu => ?_)
    (internal := fun s k h _ _ => by rwa [undisturbed_congr (congrArg HostSide.inputs (cfgInternal_host k s))])
    (lend := fun _ _ _ _ => trivial)
    (program := fun _ _ _ _ h => h)
    (command := fun _ _ _ _ h ho => undisturbed_offer h ho)
    (reset := fun _ _ h => h)
    (environment := fun _ _ _ h => h)
    (foreign := fun _ _ _ _ _ h => h)
    (write := fun _ _ _ _ h => h) h ht
  rw [undisturbed_congr (advance_inputs u), exec_port_frame (access_isPort ha) hu]
  exact h

/-- Settles O52: the block's own step keeps the fields or writes the next one of the new record, and of what happens outside
only a foreign access, which the premise excludes, could touch one. -/
theorem clockInvariant : Obligations.ClockInvariant := by
  unfold Obligations.ClockInvariant
  intro s t _ hl _ hu h hstep
  refine ⟨?_, undisturbed_step hu hstep⟩
  rcases step_cases hstep with ⟨xs, -, hb⟩ | ⟨_, _, -, rfl⟩ | ⟨r, v, xs, -, rfl⟩ | ⟨_, xs, -, ho⟩ |
    ⟨r, v, _, hx, -, -⟩ | ⟨_, _, _, -, -, rfl⟩ | ⟨_, -, -, rfl⟩
  · exact clockOk_blockStep (s := withInputs xs s) hl h hb
  · rfl
  · exact clockOk_of_samePlace (s := s) h rfl rfl (keepsHandle_refl s) (sameClock_set_readAnswer s.per r v)
  · exact clockOk_offer (s := withInputs xs s) h ho
  · exact absurd (hx ▸ List.mem_cons_self ..) (undisturbed_iff.1 hu r v)
  · exact h
  · exact h

end Sys2Proof.Machine
end

section
/-! PROOF. A transfer command looks neither at `TIMINGS` and `CONFIG` nor at the operands of a configuration command
(43_configuration.md R208; 10_state.md R25). `withHandle` gives them other values; the access is the same
(`access_withHandle`), and executing it and what follows it commute with the change (`exec_withHandle`,
`advance_withHandle`, from one lemma for each function that follows an access). -/

namespace Sys2Proof.Machine

/-- Values of the elements a transfer command does not look at. -/
structure Handle where
  timings : Option Timings
  config : Option PinConfig
  freq : Nat
  pull : PinConfig
  plan : Timings

/-- `s` with other values of these elements. -/
def withHandle (h : Handle) (s : State) : State :=
  { s with timings := h.timings, config := h.config, freq := h.freq, pull := h.pull, plan := h.plan }

section WithHandle
variable (h : Handle) (s : State)

@[simp] theorem withHandle_fsm : (withHandle h s).fsm = s.fsm := rfl
@[simp] theorem withHandle_stage : (withHandle h s).stage = s.stage := rfl
@[simp] theorem withHandle_op : (withHandle h s).op = s.op := rfl
@[simp] theorem withHandle_phase : (withHandle h s).phase = s.phase := rfl
@[simp] theorem withHandle_rdata : (withHandle h s).rdata = s.rdata := rfl

/-- A branch whose two sides commute with the change. -/
theorem ite_withHandle {c : Prop} [Decidable c] {x x' y y' : State} (hx : x' = withHandle h x)
    (hy : y' = withHandle h y) : (if c then x' else y') = withHandle h (if c then x else y) := by
  rw [apply_ite (withHandle h), hx, hy]

/-! ### What follows an access -/

theorem enterRead_withHandle : enterRead (withHandle h s) = withHandle h (enterRead s) :=
  ite_withHandle h rfl rfl

theorem afterPayload_withHandle (g : Stage) : afterPayload g (withHandle h s) = withHandle h (afterPayload g s) := by
  cases ho : s.op <;> simp only [afterPayload, withHandle_op, ho]
  case wrrd => exact enterRead_withHandle h s
  case write => rfl

theorem afterBtf_withHandle : afterBtf (withHandle h s) = withHandle h (afterBtf s) :=
  ite_withHandle h rfl (afterPayload_withHandle h s .leave)

theorem pollFlag_withHandle {go : State → State} (n : Nat) (hgo : ∀ s, go (withHandle h s) = withHandle h (go s)) :
    pollFlag n go (withHandle h s) = withHandle h (pollFlag n go s) :=
  ite_withHandle h (hgo (storeSnap s)) rfl

theorem afterMonitor_withHandle : afterMonitor (withHandle h s) = withHandle h (afterMonitor s) := by
  cases hf : s.fsm <;> simp only [afterMonitor, withHandle_fsm, hf]
  case start | addr | txe | rxne => exact pollFlag_withHandle h s _ fun _ => rfl
  case btf => exact pollFlag_withHandle h s _ (afterBtf_withHandle h)
  case master | stop => rfl

theorem afterStatusRead_withHandle : afterStatusRead (withHandle h s) = withHandle h (afterStatusRead s) := by
  cases he : firstError s.rdata <;> simp only [afterStatusRead, withHandle_rdata, he]
  case some => rfl
  case none => exact ite_withHandle h rfl (afterMonitor_withHandle h s)

theorem afterClearErr_withHandle (f : ErrFlag) :
    afterClearErr f (withHandle h s) = withHandle h (afterClearErr f s) :=
  ite_withHandle h rfl rfl

theorem afterClearBerr_withHandle (e : Option ErrFlag) :
    afterClearBerr e (withHandle h s) = withHandle h (afterClearBerr e s) := by
  cases e with
  | some f => rfl
  | none => exact afterMonitor_withHandle h s

theorem afterSecond_withHandle : afterSecond (withHandle h s) = withHandle h (afterSecond s) := by
  cases hf : s.fsm <;> simp only [afterSecond, withHandle_fsm, hf]
  case master | stop => exact ite_withHandle h rfl rfl

theorem afterLatchClear_withHandle : afterLatchClear (withHandle h s) = withHandle h (afterLatchClear s) := by
  cases hp : s.phase <;> simp only [afterLatchClear, withHandle_phase, hp]
  case wr => exact ite_withHandle h rfl (afterPayload_withHandle h s .leaveCtrl)
  case rd => exact ite_withHandle h rfl rfl

theorem afterDrain_withHandle : afterDrain (withHandle h s) = withHandle h (afterDrain s) :=
  ite_withHandle h rfl (ite_withHandle h rfl rfl)

theorem afterLeave_withHandle : afterLeave (withHandle h s) = withHandle h (afterLeave s) := by
  cases hf : s.fsm <;> simp only [afterLeave, withHandle_fsm, hf]
  case addrclr => exact afterLatchClear_withHandle h s
  case rxne => exact afterDrain_withHandle h s
  case master | txe | btf => rfl

theorem afterLeaveCtrl_withHandle : afterLeaveCtrl (withHandle h s) = withHandle h (afterLeaveCtrl s) := by
  cases hf : s.fsm <;> simp only [afterLeaveCtrl, withHandle_fsm, hf]
  case addrclr => cases hp : s.phase <;> simp only [withHandle_phase, hp] <;> rfl
  case rxne => rfl

/-! ### The access and what follows it -/

variable {s}

theorem advance_withHandle (hc : ∀ k, s.fsm ≠ .cfg k) : advance (withHandle h s) = withHandle h (advance s) := by
  unfold advance
  rw [withHandle_fsm, withHandle_stage]
  split
  · exact absurd ‹_› (hc _)
  · cases s.stage with
    | request => rfl
    | monitor => exact afterStatusRead_withHandle h s
    | clearErr f => exact afterClearErr_withHandle h s f
    | clearBerr e => exact afterClearBerr_withHandle h s e
    | second => exact afterSecond_withHandle h s
    | leave => exact afterLeave_withHandle h s
    | leaveCtrl => exact afterLeaveCtrl_withHandle h s

theorem access_withHandle (hc : ∀ k, s.fsm ≠ .cfg k) : access (withHandle h s) = access s := by
  unfold access
  rw [withHandle_fsm]
  split
  · exact absurd ‹_› (hc _)
  · rfl

theorem hasRow_withHandle : hasRow (withHandle h s) = hasRow s := rfl

theorem exec_withHandle {i : Instr} (hi : i.isPort = true) {u : State} (hu : exec i s = .next u) :
    exec i (withHandle h s) = .next (withHandle h u) := by
  cases i with
  | init | write | read | wrrd | reconf | xiter | xact => cases hi
  | _ => cases hu; rfl

end WithHandle

/-- Settles O60: the step is the same access, and neither it nor what follows it looks at the changed elements. -/
theorem transfersIgnoreTimings : Obligations.TransfersIgnoreTimings := by
  unfold Obligations.TransfersIgnoreTimings
  intro s t tm cf f p q hin hr hc hstep
  have hb : blockStep s = .next t := by simpa only [step, stepOf, hin] using hstep
  rcases blockStep_cases hb with ⟨-, hrow, i, u, ha, hu, rfl⟩ | ⟨-, hrow, hn, -⟩ | ⟨hr', -, -⟩ | ⟨hf, -⟩
  · let h : Handle := { timings := tm, config := cf, freq := f, pull := p, plan := q }
    have hport := access_isPort ha
    have hcu : ∀ k, u.fsm ≠ .cfg k := by rw [exec_port_frame hport hu]; exact hc
    have hstep' : step (withHandle h s) = .next (advance (withHandle h u)) :=
      step_of_access hin hr ((hasRow_withHandle h).trans hrow) ((access_withHandle h hc).trans ha)
        (exec_withHandle h hport hu)
    rwa [advance_withHandle h hcu] at hstep'
  · obtain ⟨k, hk, -⟩ := access_none hr hrow hn
    exact absurd hk (hc k)
  · simp [hr] at hr'
  · simp [State.running, hf] at hr

end Sys2Proof.Machine
end

section
/-! PROOF. `HALT` (60_exceptions.md R224; 70_reset_and_hazards.md R248): the block's own step there changes nothing, and a
command is taken in `IDLE` only (`offer_starts`). -/

namespace Sys2Proof.Machine

/-- A halted block does nothing of its own, and the waiting host issues nothing (log 13). -/
theorem blockStep_of_halt {s : State} {r : FatalReason} (hf : s.fsm = .halt r) : blockStep s = .next s := by
  simp only [blockStep, State.running, hostIssues, hf]

/-- Settles O58: the block's own step keeps a halted state, no command is taken, and of what happens outside only a reset
writes `FSM`. -/
theorem haltIsLeftByResetOnly : Obligations.HaltIsLeftByResetOnly := by
  unfold Obligations.HaltIsLeftByResetOnly
  intro s t r hf h
  rcases step_cases h with ⟨xs, -, hb⟩ | ⟨p, xs, hx, rfl⟩ | ⟨_, _, _, -, rfl⟩ | ⟨_, xs, -, ho⟩ | ⟨_, _, _, -, -, rfl⟩ |
    ⟨_, _, _, -, -, rfl⟩ | ⟨_, -, -, rfl⟩
  · rw [blockStep_of_halt (s := withInputs xs s) hf] at hb
    cases hb
    exact .inr ⟨hf, rfl, rfl, rfl, rfl, rfl, rfl⟩
  · exact .inl ⟨p, xs, hx, rfl⟩
  · exact .inr ⟨hf, rfl, rfl, rfl, rfl, rfl, rfl⟩
  · obtain ⟨hidle, -⟩ := offer_starts ho
    exact absurd (hf.symm.trans hidle) (by simp)
  all_goals exact .inr ⟨hf, rfl, rfl, rfl, rfl, rfl, rfl⟩

end Sys2Proof.Machine
end

section
/-! PROOF. The refusals (60_exceptions.md R225, R227; 93_implementation_defined.md U20). Each is one lemma about the test that
answers it: the lifecycle tests `whenReady` and `whenFresh`, the tests of a configuration command's operand
(`acceptConfig`), and the inputs that stand for outside agents (log 15 to log 17). -/

namespace Sys2Proof.Machine

section Tests
variable {s : State}

/-! ### The lifecycle -/

theorem whenReady_of_not_idle (hf : s.fsm ≠ .idle) (a : Answer) : whenReady s a = .refused .busy := if_pos hf

theorem whenFresh_of_not_idle (hf : s.fsm ≠ .idle) (a : Answer) : whenFresh s a = .refused .busy := if_pos hf

theorem unimplemented_of_not_idle (hf : s.fsm ≠ .idle) : unimplemented s = .refused .busy := if_pos hf

theorem whenReady_of_not_constructed (hf : s.fsm = .idle) (hc : s.constructed = false) (a : Answer) :
    whenReady s a = .refused .notConstructed := by
  simp [whenReady, hf, hc]

theorem whenReady_of_constructed (hf : s.fsm = .idle) (hc : s.constructed = true) (a : Answer) : whenReady s a = a := by
  simp [whenReady, hf, hc]

theorem whenFresh_of_constructed (hf : s.fsm = .idle) (hc : s.constructed = true) (a : Answer) :
    whenFresh s a = .refused .alreadyConstructed := by
  simp [whenFresh, hf, hc]

theorem whenFresh_of_not_constructed (hf : s.fsm = .idle) (hc : s.constructed = false) (a : Answer) :
    whenFresh s a = a := by
  simp [whenFresh, hf, hc]

/-! ### The operand of a configuration command -/

/-- Only a Standard target has a `ccr` too wide for its field (40_timing_calculator.md R131). -/
theorem target_standard_of_ccr {clock target : Nat} {t : Timings} (ht : tcalc clock target = .ok t)
    (hccr : 4095 < t.ccr) : target ≤ 100000 := by
  by_contra hfast
  obtain ⟨-, -, -, -, -, -, hmax⟩ := tcalcFast_bounds ht (Nat.not_le.mp hfast)
  have hfits : t.ccr ≤ 169 := hmax
  omega

theorem acceptConfig_of_wide {f : Nat} (hf : Config.targetMax < f) (op : Op) (p : PinConfig) (k : CfgStep) :
    acceptConfig op f p k s = .refused .wideTarget := if_pos hf

theorem acceptConfig_of_ccr {f : Nat} {t : Timings} (ht : tcalc s.pclkHz f = .ok t) (hccr : 4095 < t.ccr) (op : Op)
    (p : PinConfig) (k : CfgStep) : acceptConfig op f p k s = .refused .ccrRange := by
  have hstd := target_standard_of_ccr ht hccr
  have htarget : ¬ Config.targetMax < f := Nat.not_lt.mpr (hstd.trans (by decide))
  have hwide : ccrTooWide s.pclkHz f = true := by
    simp only [ccrTooWide, ht]
    exact decide_eq_true hccr
  rw [acceptConfig, if_neg htarget, if_pos hwide]

/-- What refuses the operand of a configuration command refuses both commands, each where its lifecycle admits it. -/
theorem exec_config_of_refused {f : Nat} {q : Refusal} (hf : s.fsm = .idle)
    (h : ∀ op p k, acceptConfig op f p k s = .refused q) (scl sda : Bool) :
    (s.constructed = false → exec (.init f scl sda) s = .refused q) ∧
    (s.constructed = true → exec (.reconf f) s = .refused q) :=
  ⟨fun hc => (whenFresh_of_not_constructed hf hc _).trans (h _ _ _),
    fun hc => (whenReady_of_constructed hf hc _).trans (h _ _ _)⟩

/-! ### Outside agents -/

theorem step_of_input {x : Input} {xs : List Input} (h : s.host.inputs = x :: xs) :
    step s = inputStep x (withInputs xs s) := by
  simp only [step, stepOf, h]

theorem foreignAccess_of_constructed (hc : s.constructed = true) (r : Reg) (v : Word) :
    foreignAccess r v s = .refused .concurrentAccess := by
  simp only [foreignAccess, hc]

/-- A command runs where the block is neither idle nor halted (10_state.md R21). -/
theorem running_of_ne (hf : s.fsm ≠ .idle) (hh : ∀ r, s.fsm ≠ .halt r) : s.running = true := by
  unfold State.running
  split
  · contradiction
  · exact absurd ‹_› (hh _)
  · rfl

theorem hostWrites_of_running (hr : s.running = true) (i : Nat) (b : Byte) :
    hostWrites i b s = .refused .payloadChanged := by
  simp only [hostWrites, hr]

theorem hostReads_of_running (hr : s.running = true) : hostReads s = .refused .payloadChanged := by
  simp only [hostReads, hr]

end Tests

/-- Settles O25: each refusal is the answer of its own test. -/
theorem refusals : Obligations.Refusals := by
  unfold Obligations.Refusals
  refine ⟨fun s a w n f hf hc => ?notConstructed, fun s f scl sda hf hc => ?alreadyConstructed,
    fun s a w n f scl sda hf => ?busy, fun s f t scl sda hf ht hccr => ?ccrRange, fun s f scl sda hf hw => ?wideTarget,
    fun s r v xs hc hx => ?concurrentAccess, fun s c hf hd => (offer_illegal hd).2 hf,
    fun s i b xs hf hh hx => ?hostWrite, fun s xs hf hh hx => ?hostRead⟩
  case notConstructed =>
    have h := whenReady_of_not_constructed hf hc
    exact ⟨h _, h _, h _, h _⟩
  case alreadyConstructed => exact whenFresh_of_constructed hf hc _
  case busy =>
    have h := whenReady_of_not_idle hf
    have hx := unimplemented_of_not_idle hf
    exact ⟨whenFresh_of_not_idle hf _, h _, h _, h _, h _, hx, hx⟩
  case ccrRange => exact exec_config_of_refused hf (acceptConfig_of_ccr ht hccr) scl sda
  case wideTarget => exact exec_config_of_refused hf (acceptConfig_of_wide hw) scl sda
  case concurrentAccess => exact (step_of_input hx).trans (foreignAccess_of_constructed (s := withInputs xs s) hc r v)
  case hostWrite =>
    exact (step_of_input hx).trans (hostWrites_of_running (s := withInputs xs s) (running_of_ne hf hh) i b)
  case hostRead =>
    exact (step_of_input hx).trans (hostReads_of_running (s := withInputs xs s) (running_of_ne hf hh))

end Sys2Proof.Machine
end

section
/-! PROOF. The peripheral enable (60_exceptions.md R236). Only `P.PE_OFF` and `P.PE_ON` name `PE` (`peBit_exec`), which no
access of a transfer command is (`setsEnable_of_access`); so every step but `c2`, `c5` and `c10` of `INIT` keeps `PE` and
`CONSTRUCTED` and enters none of the places at which `PE` is 0 (`enableOk_of_kept`). -/

namespace Sys2Proof.Machine

/-! ### The bit `PE` -/

/-- `CTRL1.PE` (10_state.md R32). -/
def peBit (s : State) : Bool := hasBit s.per.ctrl1 Bit.pe

/-- The environment does not own `PE` (10_state.md R41). -/
theorem peBit_environmentActs (r : Reg) (v : Word) (s : State) : peBit (environmentActs r v s) = peBit s := by
  cases r with
  | ctrl1 => exact (hasBit_ctrl1Answer s.per.ctrl1 v Bit.pe).trans (by simp [Bit.pe, peBit])
  | _ => rfl

/-- The micro-operations of `c5` and `c10`. -/
def setsEnable : Instr → Bool
  | .pPeOff => true
  | .pPeOn => true
  | _ => false

/-- A micro-operation that does not name `PE` keeps it. -/
theorem peBit_exec {i : Instr} (hi : i.isPort = true) (hs : setsEnable i = false) {s u : State}
    (hu : exec i s = .next u) : peBit u = peBit s := by
  cases i with
  | init | write | read | wrrd | reconf | xiter | xact => cases hi
  | pPeOff | pPeOn => cases hs
  | pRdCtrl1 => cases hu; exact (Holds.readCtrl1 s).pe
  | pSetStart => cases hu; exact (Holds.setStart s).pe
  | pSetStartAck => cases hu; exact (Keeps.setStartAck s).pe
  | pNackStop => cases hu; exact (Keeps.nackStop s).pe
  | pSetStop => cases hu; exact (Holds.setStop s).pe
  | _ => cases hu; rfl

/-- No access of a transfer command is one of `INIT`'s. -/
theorem setsEnable_of_access {s : State} {i : Instr} (hc : ∀ k, s.fsm ≠ .cfg k) (h : access s = some i) :
    setsEnable i = false := by
  revert h
  unfold access
  split
  · exact absurd ‹_› (hc _)
  · unfold requestOf whilePolling secondOf leaveOf leaveCtrlOf clearOf
    repeat' split
    all_goals (intro h; cases h <;> rfl)

/-! ### The two halves of R236 -/

/-- Both halves: `PE` is 1 while `CONSTRUCTED` is 1, and 0 from `c5` to `c10` of `INIT`. -/
def enableOk (s : State) : Prop := peOk s = true ∧ peOffOk s = true

/-- The places at which `PE` is 0. -/
def disabledAt : CfgStep → Bool
  | .c6 => true
  | .c7 => true
  | .c8 => true
  | .c9 => true
  | .c10 => true
  | _ => false

theorem peOk_iff {s : State} : peOk s = true ↔ (s.constructed = true → peBit s = true) := by
  cases hc : s.constructed <;> simp [peOk, hc, peBit]

theorem peOffOk_iff {s : State} :
    peOffOk s = true ↔ ∀ k, s.fsm = .cfg k → disabledAt k = true → peBit s = false := by
  cases hf : s.fsm with
  | cfg k => cases k <;> simp [peOffOk, hf, disabledAt, peBit]
  | _ => simp [peOffOk, hf]

/-- A step that keeps `PE` and `CONSTRUCTED`, and enters none of the places at which `PE` is 0 but from one of them. -/
theorem enableOk_of_kept {s t : State} (h : enableOk s) (hcon : t.constructed = s.constructed)
    (hpe : peBit t = peBit s)
    (hplace : ∀ k, t.fsm = .cfg k → disabledAt k = true → ∃ k', s.fsm = .cfg k' ∧ disabledAt k' = true) :
    enableOk t := by
  obtain ⟨hon, hoff⟩ := h
  refine ⟨peOk_iff.2 fun hc => ?_, peOffOk_iff.2 fun k hk hd => ?_⟩
  · rw [hpe]
    exact peOk_iff.1 hon (hcon ▸ hc)
  · obtain ⟨k', hk', hd'⟩ := hplace k hk hd
    rw [hpe]
    exact peOffOk_iff.1 hoff k' hk' hd'

/-- What happens outside moves no place. -/
theorem enableOk_of_samePlace {s t : State} (h : enableOk s) (hf : t.fsm = s.fsm)
    (hcon : t.constructed = s.constructed) (hpe : peBit t = peBit s) : enableOk t :=
  enableOk_of_kept h hcon hpe fun k hk hd => ⟨k, hf ▸ hk, hd⟩

/-! ### The configuration steps -/

theorem not_constructed_of_init {k : CfgStep} {s : State} (hk : s.fsm = .cfg k) (hi : k.ofInit = true)
    (hl : lifecycleOk s = true) : s.constructed = false := by
  simp only [lifecycleOk, hk, hi, Bool.and_eq_true, decide_eq_true_eq] at hl
  exact hl.1

theorem enableOk_of_not_constructed {s : State} (hc : s.constructed = false)
    (hoff : ∀ k, s.fsm = .cfg k → disabledAt k = true → peBit s = false) : enableOk s :=
  ⟨peOk_iff.2 (by simp [hc]), peOffOk_iff.2 hoff⟩

/-- `c5` clears `PE`, `c10` sets it, and the other accesses do not name it (43_configuration.md R197, R199). -/
theorem enableOk_afterCfg {k : CfgStep} {i : Instr} {s u : State} (hk : s.fsm = .cfg k)
    (ha : cfgAccess k s.plan = some i) (hu : exec i s = .next u) (hl : lifecycleOk s = true) (h : enableOk s) :
    enableOk (afterCfg k u) := by
  cases k with
  | c5 =>
    have hcon := not_constructed_of_init hk rfl hl
    cases ha; cases hu
    exact enableOk_of_not_constructed hcon fun _ _ _ =>
      (bitsSet_peOff s.per.ctrl1).1 (0, false) (by simp)
  | c10 =>
    cases ha; cases hu
    exact ⟨peOk_iff.2 fun _ => (bitsSet_peOn s.per.ctrl1).1 (0, true) (by simp), rfl⟩
  | c7 | c8 | c9 =>
    cases ha; cases hu
    exact enableOk_of_kept h rfl rfl fun _ _ _ => ⟨_, hk, rfl⟩
  | g2 | g3 =>
    cases ha; cases hu
    exact enableOk_of_kept h rfl rfl fun _ hk' hd => by cases hk'; cases hd
  | g4 =>
    cases ha; cases hu
    exact enableOk_of_kept h rfl rfl nofun
  | _ => cases ha

/-- `ExtReset` comes before construction and before `c5`; the other steps without an access do not touch `CTRL1`. -/
theorem enableOk_cfgInternal {k : CfgStep} {s : State} (hk : s.fsm = .cfg k) (hn : cfgAccess k s.plan = none)
    (hl : lifecycleOk s = true) (h : enableOk s) : enableOk (cfgInternal k s) := by
  have hcalc (k' : CfgStep) (hd : disabledAt k' = true → disabledAt k = true) : enableOk (cfgCalculate k' s) := by
    unfold cfgCalculate
    split
    · exact enableOk_of_kept h rfl rfl fun _ hk' hd' => by cases hk'; exact ⟨k, hk, hd hd'⟩
    · exact enableOk_of_kept h rfl rfl nofun
  cases k with
  | c1 | c3 | c4 => exact enableOk_of_kept h rfl rfl fun _ hk' hd => by cases hk'; cases hd
  | c2 =>
    have hcon := not_constructed_of_init hk rfl hl
    exact enableOk_of_not_constructed hcon fun _ hk' hd => by cases hk'; cases hd
  | c6 => exact hcalc .c7 fun _ => rfl
  | g1 => exact hcalc .g2 nofun
  | _ => cases hn

/-! ### Every step -/

theorem enableOk_offer {c : HostCmd} {s t : State} (h : enableOk s) (ho : offer c s = .next t) : enableOk t := by
  obtain ⟨-, ⟨-, -, hcon⟩, hper, hfirst⟩ := offer_starts ho
  refine enableOk_of_kept h hcon (by rw [peBit, hper, peBit]) fun k hk hd => ?_
  rcases hfirst k hk with rfl | rfl <;> cases hd

/-- An access of a transfer command, and what follows it, do not touch `PE`. -/
theorem enableOk_transfer {s u : State} {i : Instr} (hc : ∀ k, s.fsm ≠ .cfg k) (ha : access s = some i)
    (hu : exec i s = .next u) (h : enableOk s) : enableOk (advance u) := by
  have hport := access_isPort ha
  have hcu : ∀ k, u.fsm ≠ .cfg k := by rw [exec_port_frame hport hu]; exact hc
  have hct : ∀ k, (advance u).fsm ≠ .cfg k := fun k hk => by
    rcases MovesOnly.advance hcu with hm | hm <;> exact hcu k (hm.noCfg k hk)
  obtain ⟨-, -, hcon⟩ := (keepsHandle_exec_port hport hu).trans (keepsHandle_advance hcu)
  refine enableOk_of_kept h hcon ?_ fun k hk _ => absurd hk (hct k)
  rw [peBit, advance_per]
  exact peBit_exec hport (setsEnable_of_access hc ha) hu

theorem enableOk_blockStep {s t : State} (hl : lifecycleOk s = true) (h : enableOk s) (hb : blockStep s = .next t) :
    enableOk t := by
  rcases blockStep_cases hb with ⟨-, -, i, u, ha, hu, rfl⟩ | ⟨hr, hrow, hn, rfl⟩ | ⟨-, -, rfl⟩ | ⟨-, c, cs, -, ho⟩
  · by_cases hc : ∀ k, s.fsm ≠ .cfg k
    · exact enableOk_transfer hc ha hu h
    · obtain ⟨k, hk⟩ := not_forall_not.mp hc
      have hku : u.fsm = .cfg k := by rw [exec_port_frame (access_isPort ha) hu]; exact hk
      rw [advance_of_cfg hku]
      exact enableOk_afterCfg hk (by simpa only [access, hk] using ha) hu hl h
  · obtain ⟨k, hk, hn⟩ := access_none hr hrow hn
    simp only [internalStep, hk]
    exact enableOk_cfgInternal hk hn hl h
  · exact h
  · exact enableOk_offer (s := { s with host := { s.host with program := cs } }) h ho

/-- Settles O53: only `c5` and `c10` of `INIT` write `PE` and only a step of `INIT` not yet constructed resets `CTRL1`; of what
happens outside only a foreign access, which the premise excludes, could write it. -/
theorem enableInvariant : Obligations.EnableInvariant := by
  unfold Obligations.EnableInvariant
  intro s t _ hl hu hon hoff hstep
  have h : enableOk s := ⟨hon, hoff⟩
  rcases step_cases hstep with ⟨xs, -, hb⟩ | ⟨_, _, -, rfl⟩ | ⟨r, v, xs, -, rfl⟩ | ⟨_, xs, -, ho⟩ |
    ⟨r, v, _, hx, -, -⟩ | ⟨_, _, _, -, -, rfl⟩ | ⟨_, -, -, rfl⟩
  · exact enableOk_blockStep (s := withInputs xs s) hl h hb
  · exact ⟨rfl, rfl⟩
  · exact enableOk_of_samePlace h rfl rfl (peBit_environmentActs r v (withInputs xs s))
  · exact enableOk_offer (s := withInputs xs s) h ho
  · exact absurd (hx ▸ List.mem_cons_self ..) (undisturbed_iff.1 hu r v)
  · exact h
  · exact h

end Sys2Proof.Machine
end

section
/-! PROOF. The polls can hang (60_exceptions.md R237; 41_bus_sequencer.md R142). The environment answers every read so that the
poll is not met (`missScript`): `STAT1` with no flag, `STAT2` without `MSL` and `BUSY`, `CTRL1` with `STOP` still set. Then each
step leads to the poll's next read in the same state (`step_of_unmet`). -/

namespace Sys2Proof.Machine

/-! ### Staying in a state -/

/-- After each of the next `n` steps the block still stands in `f`. -/
def staysIn (f : Fsm) (n : Nat) (s : State) : Prop := ∀ k, k ≤ n → ∃ t, run k s = .next t ∧ t.fsm = f

theorem staysIn_zero {f : Fsm} {s : State} (hf : s.fsm = f) : staysIn f 0 s := fun k hk =>
  ⟨s, by rw [Nat.le_zero.mp hk, run_zero], hf⟩

theorem staysIn_succ {f : Fsm} {n : Nat} {s t : State} (hf : s.fsm = f) (hstep : step s = .next t)
    (h : staysIn f n t) : staysIn f (n + 1) s := by
  intro k hk
  cases k with
  | zero => exact ⟨s, run_zero s, hf⟩
  | succ k =>
    rw [run_succ k hstep]
    exact h k (Nat.le_of_succ_le_succ hk)

/-! ### Answers that meet no poll -/

/-- The polls whose iteration has a second read (41_bus_sequencer.md R142 `PollMaster`, `PollStop`). -/
def readsTwice : Fsm → Bool
  | .master => true
  | .stop => true
  | _ => false

/-- The sub-step after a read at sub-step `g` that did not meet the poll. -/
def nextRead (f : Fsm) (g : Stage) : Stage := if g = .monitor ∧ readsTwice f = true then .second else .monitor

/-- The answer that does not meet the poll: no flag in `STAT1`; `MSL` and `BUSY` clear in `STAT2` and `STOP` set in `CTRL1`. -/
def missAnswer (g : Stage) : Word := if g = .second then maskBit Bit.stop else 0

/-- The answers to the next `n` reads from sub-step `g` of state `f`. -/
def missScript (f : Fsm) : Nat → Stage → List Word
  | 0, _ => []
  | n + 1, g => missAnswer g :: missScript f n (nextRead f g)

/-- The block stands at a read of the poll of `f` with nothing to happen outside, no flag is set and STOP is requested, and
the next `n` answers do not meet the poll. -/
structure Unmet (f : Fsm) (g : Stage) (n : Nat) (s : State) : Prop where
  inputs : s.host.inputs = []
  place : seqOk s = true
  fsm : s.fsm = f
  stage : s.stage = g
  stat1 : s.per.stat1 = 0
  stop : hasBit s.per.ctrl1 Bit.stop = true
  answers : s.env.answers = missScript f n g

section Poll
variable {f : Fsm} {g : Stage} {n : Nat} {s : State}

theorem answer_of_unmet (h : Unmet f g (n + 1) s) :
    s.env.answer = missAnswer g ∧ s.env.advance.answers = missScript f n (nextRead f g) := by
  simp [Env.answer, Env.advance, h.answers, missScript]

/-- Where the block goes next, the poll is unmet if its state, `STAT1` and the STOP request are as they were. -/
theorem unmet_of_step {t : State} (h : Unmet f g (n + 1) s) (hstep : step s = .next t) (hin : t.host.inputs = [])
    (hf : t.fsm = f) (hg : t.stage = nextRead f g) (hstat : t.per.stat1 = 0)
    (hstop : hasBit t.per.ctrl1 Bit.stop = true) (henv : t.env = s.env.advance) : Unmet f (nextRead f g) n t :=
  ⟨hin, sequencerInvariant s t h.place hstep, hf, hg, hstat, hstop, henv ▸ (answer_of_unmet h).2⟩

/-- The step of an unmet poll is that of its row. -/
theorem step_of_leadsTo_of_unmet {t : State} (h : Unmet f g n s) (hf : f.polls = true) (hl : leadsTo s t) :
    step s = .next t := by
  have hr : s.running = true := running_of_polls (h.fsm ▸ hf)
  exact step_of_leadsTo h.inputs hr (hasRow_of_seqOk hr h.place) hl

theorem pollFlag_of_zero (hs : s.rdata = 0) (m : Nat) (go : State → State) :
    pollFlag m go s = goStage .monitor (storeSnap s) := by
  rw [pollFlag, storeSnap_snap, hs, hasBit_zero, if_neg Bool.false_ne_true]

/-- A monitor call that read no flag leads to the second read, or repeats the poll. -/
theorem afterStatusRead_of_zero (hf : s.fsm.polls = true) (hs : s.rdata = 0) :
    (afterStatusRead s).fsm = s.fsm ∧ (afterStatusRead s).stage = nextRead s.fsm .monitor := by
  rw [afterStatusRead_of_calm (by rw [hs]; decide) (by rw [hs]; decide)]
  unfold afterMonitor
  cases hfsm : s.fsm with
  | start | addr | txe | btf | rxne =>
    simp only [pollFlag_of_zero hs]
    exact ⟨hfsm, rfl⟩
  | master | stop => exact ⟨hfsm, rfl⟩
  | _ => simp [hfsm, Fsm.polls] at hf

/-- The status read. -/
theorem step_of_unmet_monitor (hf : f.polls = true) (h : Unmet f .monitor (n + 1) s) :
    ∃ t, step s = .next t ∧ Unmet f (nextRead f .monitor) n t := by
  have hpolls : s.fsm.polls = true := h.fsm ▸ hf
  have hvalue : s.readValue .stat1 = 0 := by
    rw [readValue_stat1, h.stat1, (answer_of_unmet h).1]
    decide
  have hstep := step_of_leadsTo_of_unmet h hf (leadsTo_monitor hpolls h.stage)
  obtain ⟨hfsm, hstage⟩ := afterStatusRead_of_zero (s := pRead .stat1 s) hpolls hvalue
  refine ⟨_, hstep, unmet_of_step h hstep ?_ (hfsm.trans h.fsm) ?_ ?_ ?_ ?_⟩
  · rw [afterStatusRead_inputs]; exact h.inputs
  · rw [hstage, pRead_fsm, h.fsm]
  · rw [afterStatusRead_per]; exact hvalue
  · rw [afterStatusRead_per]; exact h.stop
  · rw [afterStatusRead_env]; rfl

/-- The second read: `STAT2` without `MSL`, or `CTRL1` with `STOP` still set. -/
theorem step_of_unmet_second (hf : readsTwice f = true) (h : Unmet f .second (n + 1) s) :
    ∃ t, step s = .next t ∧ Unmet f (nextRead f .second) n t := by
  have hanswer := (answer_of_unmet h).1
  have hfsm := h.fsm
  cases f with
  | master =>
    have hmsl : hasBit (s.readValue .stat2) Bit.msl = false := by
      rw [show s.readValue .stat2 = s.env.answer from rfl, hanswer]
      decide
    have hstep := step_of_leadsTo_of_unmet h rfl (leadsTo_second_master hfsm h.stage)
    rw [afterSecond_master (s := pRead .stat2 s) hfsm, pRead_rdata, hmsl, Bool.false_and,
      if_neg Bool.false_ne_true] at hstep
    refine ⟨_, hstep, unmet_of_step h hstep h.inputs hfsm rfl ?_ h.stop rfl⟩
    change (if s.per.addrRead then clearBit s.per.stat1 Bit.addr else s.per.stat1) = 0
    rw [h.stat1, show clearBit 0 Bit.addr = 0 by decide, ite_self]
  | stop =>
    have hstop : hasBit (s.readValue .ctrl1) Bit.stop = true := by
      rw [readValue_ctrl1, hasBit_ctrl1Answer, h.stop, hanswer]
      decide
    have hstep := step_of_leadsTo_of_unmet h rfl (leadsTo_second_stop hfsm h.stage)
    rw [afterSecond_stop (s := pRead .ctrl1 s) hfsm, pRead_rdata, if_pos hstop] at hstep
    exact ⟨_, hstep, unmet_of_step h hstep h.inputs hfsm rfl h.stat1 hstop rfl⟩
  | _ => cases hf

/-- While the answers do not meet the poll the block stays in it. -/
theorem staysIn_of_unmet (hf : f.polls = true) (hg : g = .monitor ∨ g = .second ∧ readsTwice f = true)
    (h : Unmet f g n s) : staysIn f n s := by
  induction n generalizing g s with
  | zero => exact staysIn_zero h.fsm
  | succ n ih =>
    obtain ⟨t, hstep, hnext⟩ : ∃ t, step s = .next t ∧ Unmet f (nextRead f g) n t := by
      rcases hg with rfl | ⟨rfl, htwice⟩
      · exact step_of_unmet_monitor hf h
      · exact step_of_unmet_second htwice h
    refine staysIn_succ h.fsm hstep (ih ?_ hnext)
    unfold nextRead
    split
    · next htwice => exact .inr ⟨rfl, htwice.2⟩
    · exact .inl rfl

end Poll

/-- A state of a running command in the poll of `f`: `READ` of one byte waiting for it, or else `WRITE` of one byte; STOP is
requested and the next `n` answers do not meet the poll. -/
def hangingIn (f : Fsm) (n : Nat) : State :=
  { State.reset with
    fsm := f
    stage := .monitor
    op := if f = .rxne then .read else .write
    phase := if f = .rxne then .rd else .wr
    wlen := 1
    rlen := 1
    constructed := true
    per := { Periph.reset with ctrl1 := maskBit Bit.stop }
    env := { answers := missScript f n .monitor, drawn := 0 } }

theorem seqOk_hangingIn {f : Fsm} (hf : f.polls = true) (n : Nat) : seqOk (hangingIn f n) = true := by
  cases f with
  | start | master | addr | txe | btf | rxne | stop => rfl
  | _ => cases hf

/-- Settles O46: a poll that no answer meets is repeated without end. -/
theorem pollsCanHang : Obligations.PollsCanHang := by
  unfold Obligations.PollsCanHang
  intro f hf n
  have hplace := seqOk_hangingIn hf n
  have hstop : hasBit (maskBit Bit.stop) Bit.stop = true := by decide
  have hunmet : Unmet f .monitor n (hangingIn f n) := ⟨rfl, hplace, rfl, rfl, rfl, hstop, rfl⟩
  exact ⟨hangingIn f n, hplace, rfl, rfl, rfl, staysIn_of_unmet hf (.inl rfl) hunmet⟩

end Sys2Proof.Machine
end

section
/-! PROOF. The inputs that are no command (70_reset_and_hazards.md R245, R248; 00_scope.md R5; log 14, log 15, log 31). Each is
one equation of `inputStep`; the bits of a register after a step of the environment are those of `readAnswer`, where the
fields the block owns are the bits under the mask of their update. -/

namespace Sys2Proof.Machine

/-! ### The bits the environment drives -/

/-- Bits that the mask `m` has exactly where `P` holds keep their values, and every other bit is the environment's. -/
theorem hasBit_underMask_of_mask {P : Nat → Prop} [DecidablePred P] {m : Word}
    (hm : ∀ k < 16, hasBit m k = decide (P k)) (hP : ∀ k, P k → k < 16) (a old : Word) (k : Nat) :
    hasBit (underMask m a old) k = if P k then hasBit old k else hasBit a k := by
  have hmask : hasBit m k = true ↔ P k :=
    ⟨fun h => of_decide_eq_true ((hm k (BitVec.lt_of_getLsbD h)).symm.trans h),
      fun h => (hm k (hP k h)).trans (decide_eq_true h)⟩
  rw [hasBit_underMask]
  exact if_congr hmask rfl rfl

/-- The environment drives all but the low six bits of `CTRL2` and `TRISE` (10_state.md R41). -/
theorem hasBit_underMask_lowSix (a old : Word) (k : Nat) :
    hasBit (underMask 0x003F a old) k = if k < 6 then hasBit old k else hasBit a k :=
  hasBit_underMask_of_mask (P := fun k => k < 6) (m := 0x003F) (by decide) (by omega) a old k

/-- The environment drives bits 13:12 of `CCR` only (10_state.md R41). -/
theorem hasBit_underMask_ccr (a old : Word) (k : Nat) :
    hasBit (underMask 0xCFFF a old) k = if k < 12 ∨ k = 14 ∨ k = 15 then hasBit old k else hasBit a k :=
  hasBit_underMask_of_mask (P := fun k => k < 12 ∨ k = 14 ∨ k = 15) (m := 0xCFFF) (by decide) (by omega) a old k

/-! ### Outside agents that are not refused -/

section Agents
variable {s : State}

theorem foreignAccess_of_not_constructed (hc : s.constructed = false) (r : Reg) (v : Word) :
    foreignAccess r v s = .next { s with per := s.per.set r v } := by
  simp only [foreignAccess, hc]

theorem hostWrites_of_not_running (hr : s.running = false) (i : Nat) (b : Byte) :
    hostWrites i b s = .next { s with host := { s.host with txbuf := s.host.txbuf.write i b } } := by
  simp only [hostWrites, hr]

theorem hostReads_of_not_running (hr : s.running = false) : hostReads s = .next s := by
  simp only [hostReads, hr]

end Agents

/-- Settles O28: each input is its own equation, and the bits the environment drives are those of `readAnswer`. -/
theorem resetInput : Obligations.ResetInput := by
  unfold Obligations.ResetInput
  refine ⟨fun s p xs hx => ?reset, fun s r v xs hx => ?environment, fun s r v xs hc hx => ?foreign,
    fun s i b xs hr hwf hx => ?hostWrite, fun s xs hr hx => ?hostRead⟩
  case reset => exact ⟨resetBlock p (withInputs xs s), step_of_input hx, rfl, rfl, rfl, rfl, rfl, rfl⟩
  case environment =>
    refine ⟨readAnswer r (s.per.get r) v, step_of_input hx, fun k => ?_⟩
    cases r with
    | ctrl1 => exact hasBit_ctrl1Answer s.per.ctrl1 v k
    | stat1 =>
      exact (hasBit_stat1Answer s.per.stat1 v k).trans (by rw [hasBit_stickyStat1, Bool.and_comm])
    | ctrl2 => exact hasBit_underMask_lowSix v s.per.ctrl2 k
    | trise => exact hasBit_underMask_lowSix v s.per.trise k
    | ccr => exact hasBit_underMask_ccr v s.per.ccr k
    | data | stat2 => rfl
  case foreign => exact (step_of_input hx).trans (foreignAccess_of_not_constructed (s := withInputs xs s) hc r v)
  case hostWrite =>
    exact ⟨s.host.txbuf.write i b, (step_of_input hx).trans (hostWrites_of_not_running (s := withInputs xs s) hr i b),
      Memory.wf_write hwf i b, Memory.read_write_same hwf i b, fun _ hk => Memory.read_write_other b hk⟩
  case hostRead => exact (step_of_input hx).trans (hostReads_of_not_running (s := withInputs xs s) hr)

end Sys2Proof.Machine
end
